-- ==== Sys2Proof/Word.lean ====
section
/-! DEFINITION. The word types of the block (10_state.md R22; 00_scope.md R9, R10). -/

namespace Sys2Proof

/-- One byte of the input stream, or the index of a table entry (10_state.md R29, R37). -/
abbrev Byte := BitVec 8

/-- One register word as the bus sees it: "Every register is 32 bits wide on the bus" (10_state.md R22). -/
abbrev Word := BitVec 32

/-- A 64-bit register `{REG_HI, REG_LO}` (10_state.md R22), or the storage of one table entry (R37). -/
abbrev Dword := BitVec 64

end Sys2Proof
end

