-- ==== Sys2Proof/Syntax.lean ====
section
/-! DEFINITION. The commands: one constructor for each row of the opcode table (30_encoding.md R77), the five
reserved OPs among them. -/

namespace Sys2Proof

/-- The engines SELFTEST can select with ENG (30_encoding.md R74). The codes 5, 6 and 7 name no engine. -/
inductive Engine where
  | bit   -- ENG 0, as UPD_BIT
  | tbl   -- ENG 1, as UPD_TBL
  | s4    -- ENG 2, as UPD_S4
  | s8    -- ENG 3, as UPD_S8
  | s16   -- ENG 4, as UPD_S16
deriving DecidableEq, Repr

/-- A command of the block. LEN, ENG, TK and TV are "unsigned fields, used as read" (30_encoding.md R76). -/
inductive Instr where
  /-- NOP (40_parameter_set.md R100). -/
  | nop
  /-- CONSTRUCT (40_parameter_set.md R101). -/
  | construct
  /-- INIT (40_parameter_set.md R110). -/
  | init
  /-- UPD_BIT len (41_bitwise_engine.md R141). -/
  | updBit (len : BitVec 5)
  /-- UPD_TBL len (42_table_engine.md R151). -/
  | updTbl (len : BitVec 5)
  /-- UPD_S4 len (43_slice_engine.md R162). -/
  | updS4 (len : BitVec 5)
  /-- UPD_S8 len (43_slice_engine.md R163). -/
  | updS8 (len : BitVec 5)
  /-- UPD_S16 len (43_slice_engine.md R164). -/
  | updS16 (len : BitVec 5)
  /-- FINAL (40_parameter_set.md R111). -/
  | finalize
  /-- SELFTEST eng (40_parameter_set.md R112). -/
  | selftest (eng : Engine)
  /-- TBL_READ k v (44_table_builder.md R187). -/
  | tblRead (k : BitVec 4) (v : Byte)
  /-- The reserved OP 0xB with its bits 31:4 (60_exceptions.md R202). -/
  | reservedB (rest : BitVec 28)
  /-- The reserved OP 0xC with its bits 31:4 (60_exceptions.md R202). -/
  | reservedC (rest : BitVec 28)
  /-- The reserved OP 0xD with its bits 31:4 (60_exceptions.md R202). -/
  | reservedD (rest : BitVec 28)
  /-- The reserved OP 0xE with its bits 31:4 (60_exceptions.md R202). -/
  | reservedE (rest : BitVec 28)
  /-- The reserved OP 0xF with its bits 31:4 (60_exceptions.md R202). -/
  | reservedF (rest : BitVec 28)
deriving DecidableEq, Repr

end Sys2Proof
end

