-- ==== Sys2Proof/Config.lean ====
section
/-! DEFINITION. What one instance of the block fixes (00_scope.md R9), and the values the spec leaves free
(10_state.md R35, R37; 70_reset_and_hazards.md R242, R246). A free value is an opaque constant: no proof can see
what it is, so a claim about it holds whatever it is. -/

namespace Sys2Proof

/-- SLICE_MAX, "the widest slicing engine present" (00_scope.md R9): 4, 8 or 16 and nothing else (10_state.md R36). -/
inductive SliceMax where
  | four
  | eight
  | sixteen
deriving DecidableEq, Repr

/-- `K_MAX = SLICE_MAX`: how many chained tables the instance holds (00_scope.md R9). -/
def SliceMax.kMax : SliceMax → Nat
  | .four => 4
  | .eight => 8
  | .sixteen => 16

/-- "UPD_S8 exists iff SLICE_MAX >= 8" (00_scope.md R9). -/
def SliceMax.hasS8 : SliceMax → Bool
  | .four => false
  | .eight => true
  | .sixteen => true

/-- "UPD_S16 exists iff SLICE_MAX = 16" (00_scope.md R9). -/
def SliceMax.hasS16 : SliceMax → Bool
  | .four => false
  | .eight => false
  | .sixteen => true

/-- The parameters of one instance (00_scope.md R9). State carries them, so that a statement about every state is a
statement about every instance; no step changes them (log 1). LATENCY is `Config.extraCycles`. -/
structure Params where
  /-- SLICE_MAX. -/
  sliceMax : SliceMax
  /-- BASE is a 4 KiB page of the platform's address space (93_implementation_defined.md I5): this page. -/
  page : Nat
  /-- BUS_ERR: "Whether the host bus carries an error response for a refused access". -/
  busErr : Bool
deriving DecidableEq, Repr

/-- BASE, the platform address of the register window (00_scope.md R9; 20_memory.md R50). -/
def Params.base (p : Params) : Nat := 4096 * p.page

/-- LATENCY less one, for each command (00_scope.md R9: LATENCY is positive, finite and unbounded). FREE: log 2. -/
opaque Config.extraCycles : Instr → Nat

/-- The n-th 32-bit draw: what a read of an unspecified register word returns (70_reset_and_hazards.md R242). FREE: log 6. -/
opaque Config.freeWord : Nat → Word

/-- The n-th 1-bit draw: what an unspecified STATUS flag reads as (10_state.md R35). FREE: log 6. -/
opaque Config.freeBit : Nat → Bool

/-- What an entry that no CONSTRUCT has built holds (10_state.md R37: "the tables' contents are unspecified").
FREE: log 7. -/
opaque Config.unspecifiedEntry : Nat → Byte → Dword

end Sys2Proof
end

