-- ==== Sys2Proof/WellFormed.lean ====
section
/-! DEFINITION. When a command is present in an instance and well-formed (30_encoding.md R74, R78, R79, R80). The
reserved bits of a word are the decoder's to check; a command as syntax holds only its fields. -/

namespace Sys2Proof

/-- ENG is legal: "SLICE_MAX >= 8, else E_ARG" for slice-by-8, "SLICE_MAX = 16, else E_ARG" for slice-by-16
(30_encoding.md R74). -/
def Engine.present (m : SliceMax) : Engine → Bool
  | .bit => true
  | .tbl => true
  | .s4 => true
  | .s8 => m.hasS8
  | .s16 => m.hasS16

/-- The command's OP is one the instance has: `present(op)` of 30_encoding.md R80. A reserved OP never is. -/
def Instr.present (m : SliceMax) : Instr → Bool
  | .nop => true
  | .construct => true
  | .init => true
  | .updBit _ => true
  | .updTbl _ => true
  | .updS4 _ => true
  | .updS8 _ => m.hasS8
  | .updS16 _ => m.hasS16
  | .finalize => true
  | .selftest _ => true
  | .tblRead _ _ => true
  | .reservedB _ => false
  | .reservedC _ => false
  | .reservedD _ => false
  | .reservedE _ => false
  | .reservedF _ => false

/-- "LEN = 0 to 16 are legal" (30_encoding.md R73). -/
def lenLegal (len : BitVec 5) : Bool := decide (len.toNat ≤ 16)

/-- The command's fields are legal on the instance (the operand lines of 30_encoding.md R79). -/
def Instr.operandsLegal (m : SliceMax) : Instr → Bool
  | .nop => true
  | .construct => true
  | .init => true
  | .updBit len => lenLegal len
  | .updTbl len => lenLegal len
  | .updS4 len => lenLegal len
  | .updS8 len => lenLegal len
  | .updS16 len => lenLegal len
  | .finalize => true
  | .selftest eng => eng.present m
  | .tblRead k _ => decide (k.toNat < m.kMax)
  | .reservedB _ => true
  | .reservedC _ => true
  | .reservedD _ => true
  | .reservedE _ => true
  | .reservedF _ => true

/-- A well-formed command: a present OP with legal fields (30_encoding.md R79). A reserved OP is never one. -/
def Instr.wellFormed (m : SliceMax) (i : Instr) : Bool := i.present m && i.operandsLegal m

/-- The command is one of the reserved OPs 0xB to 0xF (30_encoding.md R78). -/
def Instr.isReserved : Instr → Bool
  | .nop => false
  | .construct => false
  | .init => false
  | .updBit _ => false
  | .updTbl _ => false
  | .updS4 _ => false
  | .updS8 _ => false
  | .updS16 _ => false
  | .finalize => false
  | .selftest _ => false
  | .tblRead _ _ => false
  | .reservedB _ => true
  | .reservedC _ => true
  | .reservedD _ => true
  | .reservedE _ => true
  | .reservedF _ => true

end Sys2Proof
end

