-- ==== Sys2Proof/Decode.lean ====
section
/-! DEFINITION. The decoder, total on all 2^32 words (30_encoding.md R70 to R80), and after it the encoder, written
from the same formats. -/

namespace Sys2Proof

/-- What a command word decodes to. "Every word is exactly one of: a well-formed command; an illegal word (E_OPC);
or an ill-formed word (E_ARG)" (30_encoding.md R79). A word with a reserved OP is illegal too: it decodes to the
command that stands for that row of the opcode table, and its meaning is E_OPC (log 8). -/
inductive Decoded where
  /-- A well-formed command, or a reserved OP. -/
  | command (i : Instr)
  /-- OP names a slicing engine this instance lacks: E_OPC (30_encoding.md R78). -/
  | absent
  /-- A present OP whose word is not well-formed: E_ARG (30_encoding.md R79). -/
  | illFormed
deriving DecidableEq, Repr

/-- OP, bits 3:0 (30_encoding.md R71). -/
def opField (w : Word) : BitVec 4 := w.extractLsb' 0 4

/-- LEN, bits 8:4 of format U (30_encoding.md R73). -/
def lenField (w : Word) : BitVec 5 := w.extractLsb' 4 5

/-- ENG, bits 6:4 of format S (30_encoding.md R74). -/
def engField (w : Word) : BitVec 3 := w.extractLsb' 4 3

/-- TK, bits 11:8 of format T (30_encoding.md R75). -/
def tkField (w : Word) : BitVec 4 := w.extractLsb' 8 4

/-- TV, bits 19:12 of format T (30_encoding.md R75). -/
def tvField (w : Word) : Byte := w.extractLsb' 12 8

/-- Bits 31:4 of a word, which a reserved OP leaves without meaning. -/
def restField (w : Word) : BitVec 28 := w.extractLsb' 4 28

/-- The engine ENG names, none for the reserved codes 5, 6 and 7 (30_encoding.md R74). -/
def Engine.ofCode (e : BitVec 3) : Option Engine :=
  match e.toNat with
  | 0 => some .bit
  | 1 => some .tbl
  | 2 => some .s4
  | 3 => some .s8
  | 4 => some .s16
  | _ => none

/-- Format N: bits 31:4 must be 0 (30_encoding.md R72). -/
def decodeN (i : Instr) (w : Word) : Decoded :=
  if w.extractLsb' 4 28 = 0 then .command i else .illFormed

/-- Format U: bits 31:9 must be 0 and LEN at most 16 (30_encoding.md R73). -/
def decodeU (mk : BitVec 5 → Instr) (w : Word) : Decoded :=
  if w.extractLsb' 9 23 = 0 then
    if lenLegal (lenField w) then .command (mk (lenField w)) else .illFormed
  else .illFormed

/-- Format S: bits 31:7 must be 0 and ENG legal (30_encoding.md R74). -/
def decodeS (m : SliceMax) (w : Word) : Decoded :=
  if w.extractLsb' 7 25 = 0 then
    match Engine.ofCode (engField w) with
    | some e => if e.present m then .command (.selftest e) else .illFormed
    | none => .illFormed
  else .illFormed

/-- Format T: bits 31:20 and 7:4 must be 0 and TK less than K_MAX (30_encoding.md R75). -/
def decodeT (m : SliceMax) (w : Word) : Decoded :=
  if w.extractLsb' 20 12 = 0 ∧ w.extractLsb' 4 4 = 0 then
    if (tkField w).toNat < m.kMax then .command (.tblRead (tkField w) (tvField w)) else .illFormed
  else .illFormed

/-- The decoder of 30_encoding.md R80, on an instance with SLICE_MAX = m: presence of the OP first, then the format. -/
def decode (m : SliceMax) (w : Word) : Decoded :=
  match (opField w).toNat with
  | 0x0 => decodeN .nop w
  | 0x1 => decodeN .construct w
  | 0x2 => decodeN .init w
  | 0x3 => decodeU .updBit w
  | 0x4 => decodeU .updTbl w
  | 0x5 => decodeU .updS4 w
  | 0x6 => if m.hasS8 then decodeU .updS8 w else .absent
  | 0x7 => if m.hasS16 then decodeU .updS16 w else .absent
  | 0x8 => decodeN .finalize w
  | 0x9 => decodeS m w
  | 0xA => decodeT m w
  | 0xB => .command (.reservedB (restField w))
  | 0xC => .command (.reservedC (restField w))
  | 0xD => .command (.reservedD (restField w))
  | 0xE => .command (.reservedE (restField w))
  | _ => .command (.reservedF (restField w))

/-- ENG of an engine (30_encoding.md R74). -/
def Engine.code : Engine → BitVec 3
  | .bit => 0
  | .tbl => 1
  | .s4 => 2
  | .s8 => 3
  | .s16 => 4

/-- OP of a command (30_encoding.md R77). -/
def Instr.op : Instr → BitVec 4
  | .nop => 0x0
  | .construct => 0x1
  | .init => 0x2
  | .updBit _ => 0x3
  | .updTbl _ => 0x4
  | .updS4 _ => 0x5
  | .updS8 _ => 0x6
  | .updS16 _ => 0x7
  | .finalize => 0x8
  | .selftest _ => 0x9
  | .tblRead _ _ => 0xA
  | .reservedB _ => 0xB
  | .reservedC _ => 0xC
  | .reservedD _ => 0xD
  | .reservedE _ => 0xE
  | .reservedF _ => 0xF

/-- Bits 31:4 of a command's word: its fields at their places, 0 elsewhere (30_encoding.md R72 to R75). -/
def Instr.upper : Instr → BitVec 28
  | .nop => 0
  | .construct => 0
  | .init => 0
  | .updBit len => len.setWidth 28
  | .updTbl len => len.setWidth 28
  | .updS4 len => len.setWidth 28
  | .updS8 len => len.setWidth 28
  | .updS16 len => len.setWidth 28
  | .finalize => 0
  | .selftest eng => eng.code.setWidth 28
  | .tblRead k v => (v.setWidth 28 <<< 8) ||| (k.setWidth 28 <<< 4)
  | .reservedB rest => rest
  | .reservedC rest => rest
  | .reservedD rest => rest
  | .reservedE rest => rest
  | .reservedF rest => rest

/-- The word of a command: `{upper, OP}` (30_encoding.md R71, R77). -/
def encode (i : Instr) : Word := i.upper ++ i.op

/-- What the decoder reads from the table's numbering of a word. A command is one 32-bit word (30_encoding.md R70);
the widest instance is asked, since it has every row of the table. -/
def decodeTableWord (nbits w : Nat) : Option Instr :=
  match decode .sixteen (BitVec.ofNat 32 (w % 2 ^ nbits)) with
  | .command i => some i
  | .absent => none
  | .illFormed => none

end Sys2Proof
end

