-- ==== Sys2Proof/Machine/State.lean ====
section
/-! DEFINITION. The state of the block and of the host that drives it (10_state.md R20 to R38), the reasons a step can
stop, and the state after reset (70_reset_and_hazards.md R230). -/

namespace Sys2Proof.Machine

/-- The reasons the machine stops with a fault: NONE. Every exception of the block is a sticky STATUS bit after which
"the block stays ready for the next access" (60_exceptions.md R212), so nothing raises a fault; safe (log 18). -/
inductive Fault where
deriving DecidableEq, Repr

/-- The reasons a step is refused. -/
inductive Refusal where
  /-- Raised only by an arm of exec whose instruction has no meaning yet; there is no such arm. Safe. -/
  | notModelled (mnemonic : String)
deriving DecidableEq, Repr

/-- One action of the host. Accesses use platform addresses; the block answers those inside its window
(20_memory.md R50, R52). -/
inductive HostAction where
  /-- `MemRead` of `size` bytes at a platform address (00_scope.md R12). -/
  | read (addr size : Nat)
  /-- `MemWrite` of `size` bytes at a platform address; a legal one writes the whole word (log 12). -/
  | write (addr size : Nat) (data : Word)
  /-- `WAIT`: poll STATUS until BUSY reads 0 (30_encoding.md R83; 70_reset_and_hazards.md R241). One poll a step
  (log 17). -/
  | wait
  /-- A cycle in which the host makes no access. -/
  | idle
  /-- The reset input is asserted: "a host action that may occur between any two steps" (70_reset_and_hazards.md R230). -/
  | reset
deriving DecidableEq, Repr

/-- What the bus carries back for one access: the word a read returns, none for a write, and whether it is an error
response (20_memory.md R52, R53). -/
structure BusResponse where
  data : Option Word
  err : Bool
deriving DecidableEq, Repr

/-- The lookup tables (10_state.md R37): "unspecified" until a CONSTRUCT, then the rows T[0], T[1], … of 64-bit entries. -/
inductive TableStore where
  | unspecified
  | built (rows : List (List Dword))
deriving DecidableEq, Repr

/-- Everything the spec gives the machine, one home for each register (logs 15, 16); and the model's own fields `host`,
`countdown`, `draws` and `resp` (INVENTORY.md, State). -/
structure State where
  /-- SLICE_MAX (read through CAP), BASE and BUS_ERR (00_scope.md R9). -/
  params : Params
  /-- CFG[4:0]; bits 31:5 read 0 (10_state.md R23). -/
  cfg : BitVec 5
  /-- POLY (R25). -/
  poly : Dword
  /-- INIT (R27). -/
  init : Dword
  /-- XOROUT (R27). -/
  xorout : Dword
  /-- CHECK (R27). -/
  check : Dword
  /-- CRC (R28). -/
  crc : Dword
  /-- RESULT (R30). -/
  result : Dword
  /-- PNORM (R32). -/
  pnorm : Dword
  /-- PREV (R32). -/
  prev : Dword
  /-- DIN0 to DIN3 (R29). -/
  din0 : Word
  din1 : Word
  din2 : Word
  din3 : Word
  /-- STATUS.VALID (R26, R33). -/
  valid : Bool
  /-- STATUS.ST_DONE (R33). -/
  stDone : Bool
  /-- STATUS.ST_PASS (R33). -/
  stPass : Bool
  /-- STATUS[14:8]: bit n is the sticky bit of error code n (R33; 60_exceptions.md R200). -/
  errs : BitVec 7
  /-- T[0] to T[K_MAX-1] (R37). -/
  tables : TableStore
  /-- PENDING, none or one accepted command (R38). STATUS.BUSY reads `PENDING != none`. -/
  pending : Option Instr
  /-- Cycles left before the pending command completes (log 2). -/
  countdown : Nat
  /-- The host actions not yet taken, in bus order (20_memory.md R58; log 3). -/
  host : List HostAction
  /-- How many unspecified values have been drawn so far (log 6). -/
  draws : Nat
  /-- The response to the last access (log 10). -/
  resp : BusResponse
deriving DecidableEq, Repr

/-- The state right after reset on the instance `p` (70_reset_and_hazards.md R230, R231), with nothing left for the
host to do. -/
def State.resetOf (p : Params) : State where
  params := p
  cfg := 0
  poly := 0
  init := 0
  xorout := 0
  check := 0
  crc := 0
  result := 0
  pnorm := 0
  prev := 0
  din0 := 0
  din1 := 0
  din2 := 0
  din3 := 0
  valid := false
  stDone := false
  stPass := false
  errs := 0
  tables := .unspecified
  pending := none
  countdown := 0
  host := []
  draws := 0
  resp := ⟨none, false⟩

/-- The machine right after reset. The instance is the widest one, SLICE_MAX = 16, at page 0, without a bus error
response: DESIGN CHOICE, log 1. -/
def State.reset : State := State.resetOf ⟨.sixteen, 0, false⟩

end Sys2Proof.Machine
end

