-- ==== Sys2Proof/Machine/Operands.lean ====
section
/-! DEFINITION. Every operand a command reads, from the registers it stands in: the fields of CFG, the W-bit values and
the input window (00_scope.md R10, R14; 10_state.md R22, R23, R27 to R29). -/

namespace Sys2Proof.Machine

/-- The register width W, chosen by CFG.WIDTH (00_scope.md R9). -/
inductive Width where
  | w8
  | w16
  | w32
  | w64
deriving DecidableEq, Repr

/-- W in bits. -/
def Width.bits : Width → Nat
  | .w8 => 8
  | .w16 => 16
  | .w32 => 32
  | .w64 => 64

/-- "0: W = 8; 1: W = 16; 2: W = 32; 3: W = 64" (10_state.md R23). -/
def Width.ofCode (c : BitVec 2) : Width :=
  match c.toNat with
  | 0 => .w8
  | 1 => .w16
  | 2 => .w32
  | _ => .w64

/-- The representations POLY can be written in (10_state.md R23, R31). -/
inductive PolyFormat where
  | normal
  | reverse
  | koopman
deriving DecidableEq, Repr

/-- "0: Normal; 1: Reverse; 2: Koopman; 3: reserved" (10_state.md R23). -/
def PolyFormat.ofCode (c : BitVec 2) : Option PolyFormat :=
  match c.toNat with
  | 0 => some .normal
  | 1 => some .reverse
  | 2 => some .koopman
  | _ => none

/-- SLICE_MAX of this instance. -/
def State.sliceMax (s : State) : SliceMax := s.params.sliceMax

/-- CFG.WIDTH as a width. -/
def State.width (s : State) : Width := Width.ofCode (s.cfg.extractLsb' 0 2)

/-- W, the register width in bits (00_scope.md R14). -/
abbrev State.W (s : State) : Nat := s.width.bits

/-- RF: true for Reflected, false for NonReflected, CFG.REFL (00_scope.md R14; 10_state.md R23). -/
def State.refl (s : State) : Bool := s.cfg.getLsbD 2

/-- CFG.PFMT; none for the reserved code 3 (10_state.md R23). -/
def State.polyFormat (s : State) : Option PolyFormat := PolyFormat.ofCode (s.cfg.extractLsb' 3 2)

/-- `zext_64(v)` (00_scope.md R10). -/
def zext64 {w : Nat} (v : BitVec w) : Dword := v.setWidth 64

/-- REG_LO, bits 31:0 (10_state.md R22). -/
def lo32 (d : Dword) : Word := d.extractLsb' 0 32

/-- REG_HI, bits 63:32 (10_state.md R22). -/
def hi32 (d : Dword) : Word := d.extractLsb' 32 32

/-- `{REG_HI, REG_LO}` (10_state.md R22). -/
def joinWords (hi lo : Word) : Dword := hi ++ lo

/-- PN, the polynomial in Normal form, register PNORM (00_scope.md R14). -/
def State.pn (s : State) : BitVec s.W := s.pnorm.setWidth s.W

/-- POLY[W-1:0], the only bits of POLY that CONSTRUCT reads (10_state.md R25). -/
def State.polyW (s : State) : BitVec s.W := s.poly.setWidth s.W

/-- `c = CRC[W-1:0]` (00_scope.md R14; 10_state.md R28). -/
def State.crcW (s : State) : BitVec s.W := s.crc.setWidth s.W

/-- INIT[W-1:0] (10_state.md R27). -/
def State.initW (s : State) : BitVec s.W := s.init.setWidth s.W

/-- XOROUT[W-1:0] (10_state.md R27). -/
def State.xoroutW (s : State) : BitVec s.W := s.xorout.setWidth s.W

/-- CHECK[W-1:0] (10_state.md R27). -/
def State.checkW (s : State) : BitVec s.W := s.check.setWidth s.W

/-- DIN0 to DIN3 by number. -/
def State.dinWord (s : State) (n : Nat) : Word :=
  match n with
  | 0 => s.din0
  | 1 => s.din1
  | 2 => s.din2
  | _ => s.din3

/-- D[i]: "Byte i is DIN(i/4)[8*(i mod 4)+7 : 8*(i mod 4)]" (10_state.md R29). -/
def State.dinByte (s : State) (i : Nat) : Byte := (s.dinWord (i / 4)).extractLsb' (8 * (i % 4)) 8

/-- D[0..15], the input window in stream order (10_state.md R29). -/
def State.window (s : State) : List Byte := (List.range 16).map s.dinByte

/-- D[0] to D[LEN-1], what an UPD_* command reads (10_state.md R29). -/
def State.inputBytes (s : State) (len : BitVec 5) : List Byte := s.window.take len.toNat

/-- T[k][v], W bits (00_scope.md R12; 10_state.md R37). An entry that no CONSTRUCT has built is a free value (log 7). -/
def TableStore.entry (t : TableStore) (k : Nat) (v : Byte) : Dword :=
  match t with
  | .unspecified => Config.unspecifiedEntry k v
  | .built rows =>
    match rows[k]? with
    | some row =>
      match row[v.toNat]? with
      | some e => e
      | none => Config.unspecifiedEntry k v
    | none => Config.unspecifiedEntry k v

/-- T[k][v] as the engines read it, its bits W-1:0. -/
def State.table (s : State) (k : Nat) (v : Byte) : BitVec s.W := (s.tables.entry k v).setWidth s.W

end Sys2Proof.Machine
end

