-- ==== Sys2Proof/Machine/Flags.lean ====
section
/-! DEFINITION. STATUS, the block's only flags: its layout, its error bits, and the rule of every flag (10_state.md R33
to R35; 60_exceptions.md R200). -/

namespace Sys2Proof.Machine

/-- The block's exceptions (60_exceptions.md R200). -/
inductive ErrorCode where
  | acc
  | busy
  | opc
  | arg
  | nocfg
  | pfmt
  | poly
deriving DecidableEq, Repr

/-- "The bit of code n is STATUS bit 8 + n" (60_exceptions.md R200): the code n. -/
def ErrorCode.code : ErrorCode → Nat
  | .acc => 0
  | .busy => 1
  | .opc => 2
  | .arg => 3
  | .nocfg => 4
  | .pfmt => 5
  | .poly => 6

/-- The code's bit within STATUS[14:8]. -/
def ErrorCode.bit (e : ErrorCode) : BitVec 7 := BitVec.twoPow 7 e.code

/-- STATUS.BUSY: `PENDING != none` (10_state.md R38). -/
def State.busy (s : State) : Bool := s.pending.isSome

/-- A flag as a 32-bit word, for placing it in STATUS. -/
def flagAt (b : Bool) (n : Nat) : Word := if b then BitVec.twoPow 32 n else 0

/-- STATUS[14:8] cleared where v[14:8] is 1 (10_state.md R34). -/
def clearedErrors (errs : BitVec 7) (v : Word) : BitVec 7 := errs &&& ~~~(v.extractLsb' 8 7)

/-- The STATUS word from its fields (10_state.md R33). -/
def statusWord (busy valid stDone stPass : Bool) (errs : BitVec 7) : Word :=
  flagAt busy 0 ||| flagAt valid 1 ||| flagAt stDone 2 ||| flagAt stPass 3 ||| (errs.setWidth 32 <<< 8)

/-- The CAP word: SMAX in bits 1:0, "0 means SLICE_MAX = 4, 1 means SLICE_MAX = 8 and 2 means SLICE_MAX = 16"
(10_state.md R36). -/
def capWord : SliceMax → Word
  | .four => 0
  | .eight => 1
  | .sixteen => 2

/-- What an accepted write to CFG or POLY does to the flags: VALID, ST_DONE and ST_PASS become 0 (10_state.md R24,
R25). The tables' contents are unspecified from then on (R37; log 7). -/
def State.invalidate (s : State) : State :=
  { s with valid := false, stDone := false, stPass := false, tables := .unspecified }

end Sys2Proof.Machine
end

