-- ==== Sys2Proof/Machine/Poly.lean ====
section
/-! DEFINITION. The polynomial representations: reversal, the defining bit, the conversions to and from Normal form
(00_scope.md R11; 10_state.md R31; 40_parameter_set.md R102, R103). -/

namespace Sys2Proof.Machine

/-- `rev_W(x)`: bit i of the result is bit W-1-i of x (00_scope.md R11). -/
def rev {w : Nat} (x : BitVec w) : BitVec w := x.reverse

/-- `defining_bit_set` (40_parameter_set.md R102; 10_state.md R31). -/
def definingBitSet {w : Nat} (f : PolyFormat) (p : BitVec w) : Bool :=
  match f with
  | .normal => p.getLsbD 0
  | .reverse => p.getLsbD (w - 1)
  | .koopman => p.getLsbD (w - 1)

/-- `to_normal` (40_parameter_set.md R102). -/
def toNormal {w : Nat} (f : PolyFormat) (p : BitVec w) : BitVec w :=
  match f with
  | .normal => p
  | .reverse => rev p
  | .koopman => (p <<< 1) ||| 1#w

/-- `to_reverse`, from Normal form (40_parameter_set.md R103). -/
def toReverse {w : Nat} (pn : BitVec w) : BitVec w := rev pn

/-- `to_koopman`, from Normal form (40_parameter_set.md R103). -/
def toKoopman {w : Nat} (pn : BitVec w) : BitVec w := (pn >>> 1) ||| (1#w <<< (w - 1))

end Sys2Proof.Machine
end

