-- ==== Sys2Proof/Machine/Ops.lean ====
section
/-! DEFINITION. The shared operations: taking an exception and clearing it, issuing and completing a command, writing
the result registers, reset (60_exceptions.md R201, R212, R214; 20_memory.md R59; 70_reset_and_hazards.md R230). -/

namespace Sys2Proof.Machine

/-- Taking an exception, `raise E_X`: "the error bit is set and nothing else changes" (60_exceptions.md R201, R212). It
is no trap: "No state is saved, no mode changes, no vector is taken". -/
def State.raise (s : State) (e : ErrorCode) : State := { s with errs := s.errs ||| e.bit }

/-- Recovery, the W1C write of v to STATUS, in place of a return from exception (60_exceptions.md R214; 10_state.md R34). -/
def State.clearErrors (s : State) (v : Word) : State := { s with errs := clearedErrors s.errs v }

/-- `PENDING <- d` (60_exceptions.md R201): the command waits for its completion, LATENCY cycles away (log 2). -/
def State.accept (s : State) (i : Instr) : State :=
  { s with pending := some i, countdown := Config.extraCycles i }

/-- The command leaves PENDING (10_state.md R38; 20_memory.md R59). -/
def State.retire (s : State) : State := { s with pending := none, countdown := 0 }

/-- `CRC <- zext_64(r)` (10_state.md R28). -/
def State.setCrc {w : Nat} (s : State) (r : BitVec w) : State := { s with crc := zext64 r }

/-- `RESULT <- zext_64(r)` (10_state.md R30). -/
def State.setResult {w : Nat} (s : State) (r : BitVec w) : State := { s with result := zext64 r }

/-- The bus answers an access (20_memory.md R53). -/
def State.respond (s : State) (data : Option Word) (err : Bool) : State := { s with resp := ⟨data, err⟩ }

/-- "INIT, UPD_BIT, UPD_TBL, UPD_S4, UPD_S8, UPD_S16, FINAL, SELFTEST and TBL_READ require STATUS.VALID = 1"
(60_exceptions.md R206): every command but NOP and CONSTRUCT. -/
def needsValid : Instr → Bool
  | .nop => false
  | .construct => false
  | .init => true
  | .updBit _ => true
  | .updTbl _ => true
  | .updS4 _ => true
  | .updS8 _ => true
  | .updS16 _ => true
  | .finalize => true
  | .selftest _ => true
  | .tblRead _ _ => true
  | .reservedB _ => false
  | .reservedC _ => false
  | .reservedD _ => false
  | .reservedE _ => false
  | .reservedF _ => false

/-- The check CONSTRUCT alone makes: E_PFMT before E_POLY (60_exceptions.md R201, R203, R204, R211). -/
def constructError (s : State) : Option ErrorCode :=
  match s.polyFormat with
  | none => some .pfmt
  | some f => if definingBitSet f s.polyW then none else some .poly

/-- The command checks of one command, in the order E_OPC, E_ARG, E_NOCFG, E_PFMT, E_POLY (60_exceptions.md R201,
R211); none when the command is accepted. On a decoded command the first two have been made already (log 9). -/
def commandError (i : Instr) (s : State) : Option ErrorCode :=
  if i.present s.sliceMax = false then some .opc
  else if i.operandsLegal s.sliceMax = false then some .arg
  else if needsValid i = true ∧ s.valid = false then some .nocfg
  else if i = .construct then constructError s
  else none

/-- The issue of a command (60_exceptions.md R201): busy first, then the command checks, then `PENDING <- d`. -/
def issue (i : Instr) (s : State) : State :=
  if s.busy then s.raise .busy
  else
    match commandError i s with
    | some e => s.raise e
    | none => s.accept i

/-- A command's two moments (log 5). Where it is the one PENDING holds, it completes: "every register and table write
the command's rule gives happens at once, and PENDING becomes none" (20_memory.md R59), with no error path
(60_exceptions.md R207). Otherwise it is issued. A CMD write made while a command is pending never comes here: the bus
drops it first (60_exceptions.md R210, R213). -/
def runCommand (i : Instr) (effect : State → State) (s : State) : Host.Outcome State Fault Refusal :=
  if s.pending = some i then .next (effect s).retire else .next (issue i s)

/-- Reset asserted at any time (70_reset_and_hazards.md R230): every register, VALID, the error bits, PENDING and the
tables as after power-on. The instance stays what it is; the host's remaining actions, the draw counter and the last
bus response are not the block's (logs 3, 6, 10). -/
def State.resetBlock (s : State) : State :=
  { State.resetOf s.params with host := s.host, draws := s.draws, resp := s.resp }

end Sys2Proof.Machine
end

