-- ==== Sys2Proof/Machine/Bus.lean ====
section
/-! DEFINITION. The register window: the register map, what a host access reads and writes, and which agent moves next
(10_state.md R22 to R36; 20_memory.md R50 to R59; 60_exceptions.md R210, R213; 70_reset_and_hazards.md R230, R242). -/

namespace Sys2Proof.Machine

/-- The registers of the map (10_state.md R22). -/
inductive Reg where
  | cfg | cmd | status | cap
  | polyLo | polyHi | initLo | initHi | xoroutLo | xoroutHi | checkLo | checkHi
  | crcLo | crcHi | resultLo | resultHi | pnormLo | pnormHi | prevLo | prevHi
  | din0 | din1 | din2 | din3
deriving DecidableEq, Repr

/-- The register at a byte offset, none for the reserved offsets 0x060 to 0xFFC (10_state.md R22; 20_memory.md R50). -/
def Reg.ofOffset (off : Nat) : Option Reg :=
  match off with
  | 0x000 => some .cfg
  | 0x004 => some .cmd
  | 0x008 => some .status
  | 0x00C => some .cap
  | 0x010 => some .polyLo
  | 0x014 => some .polyHi
  | 0x018 => some .initLo
  | 0x01C => some .initHi
  | 0x020 => some .xoroutLo
  | 0x024 => some .xoroutHi
  | 0x028 => some .checkLo
  | 0x02C => some .checkHi
  | 0x030 => some .crcLo
  | 0x034 => some .crcHi
  | 0x038 => some .resultLo
  | 0x03C => some .resultHi
  | 0x040 => some .pnormLo
  | 0x044 => some .pnormHi
  | 0x048 => some .prevLo
  | 0x04C => some .prevHi
  | 0x050 => some .din0
  | 0x054 => some .din1
  | 0x058 => some .din2
  | 0x05C => some .din3
  | _ => none

/-- The byte offset of a register (10_state.md R22). -/
def Reg.offset : Reg → Nat
  | .cfg => 0x000
  | .cmd => 0x004
  | .status => 0x008
  | .cap => 0x00C
  | .polyLo => 0x010
  | .polyHi => 0x014
  | .initLo => 0x018
  | .initHi => 0x01C
  | .xoroutLo => 0x020
  | .xoroutHi => 0x024
  | .checkLo => 0x028
  | .checkHi => 0x02C
  | .crcLo => 0x030
  | .crcHi => 0x034
  | .resultLo => 0x038
  | .resultHi => 0x03C
  | .pnormLo => 0x040
  | .pnormHi => 0x044
  | .prevLo => 0x048
  | .prevHi => 0x04C
  | .din0 => 0x050
  | .din1 => 0x054
  | .din2 => 0x058
  | .din3 => 0x05C

/-- The word a register holds (10_state.md R22, R23, R33, R36). CMD reads 0 (20_memory.md R54). -/
def State.stored (s : State) : Reg → Word
  | .cfg => s.cfg.setWidth 32
  | .cmd => 0
  | .status => statusWord s.busy s.valid s.stDone s.stPass s.errs
  | .cap => capWord s.sliceMax
  | .polyLo => lo32 s.poly
  | .polyHi => hi32 s.poly
  | .initLo => lo32 s.init
  | .initHi => hi32 s.init
  | .xoroutLo => lo32 s.xorout
  | .xoroutHi => hi32 s.xorout
  | .checkLo => lo32 s.check
  | .checkHi => hi32 s.check
  | .crcLo => lo32 s.crc
  | .crcHi => hi32 s.crc
  | .resultLo => lo32 s.result
  | .resultHi => hi32 s.result
  | .pnormLo => lo32 s.pnorm
  | .pnormHi => hi32 s.pnorm
  | .prevLo => lo32 s.prev
  | .prevHi => hi32 s.prev
  | .din0 => s.din0
  | .din1 => s.din1
  | .din2 => s.din2
  | .din3 => s.din3

/-- CRC, RESULT, PNORM and PREV read as unspecified 32-bit values while BUSY = 1 (70_reset_and_hazards.md R242). -/
def Reg.unspecifiedWhileBusy : Reg → Bool
  | .crcLo => true
  | .crcHi => true
  | .resultLo => true
  | .resultHi => true
  | .pnormLo => true
  | .pnormHi => true
  | .prevLo => true
  | .prevHi => true
  | .cfg => false
  | .cmd => false
  | .status => false
  | .cap => false
  | .polyLo => false
  | .polyHi => false
  | .initLo => false
  | .initHi => false
  | .xoroutLo => false
  | .xoroutHi => false
  | .checkLo => false
  | .checkHi => false
  | .din0 => false
  | .din1 => false
  | .din2 => false
  | .din3 => false

/-- The pending command is a SELFTEST, whatever its engine. -/
def State.selftestPending (s : State) : Bool :=
  match s.pending with
  | some (.selftest _) => true
  | _ => false

/-- The STATUS word a read returns: "VALID reads an unspecified value while a CONSTRUCT is pending. ST_DONE and ST_PASS
read unspecified values while a SELFTEST is pending" (10_state.md R35), each a free 1-bit draw. -/
def State.observedStatus (s : State) : Word :=
  if s.pending = some .construct then
    statusWord true (Config.freeBit s.draws) s.stDone s.stPass s.errs
  else if s.selftestPending then
    statusWord true s.valid (Config.freeBit s.draws) (Config.freeBit (s.draws + 1)) s.errs
  else s.stored .status

/-- The word a legal read of a register returns (10_state.md R35; 70_reset_and_hazards.md R242). -/
def State.observed (s : State) (r : Reg) : Word :=
  if r = .status then s.observedStatus
  else if s.busy && r.unspecifiedWhileBusy then Config.freeWord s.draws
  else s.stored r

/-- How many free values a read of a register draws. -/
def State.drawsFor (s : State) (r : Reg) : Nat :=
  if r = .status then
    if s.pending = some .construct then 1 else if s.selftestPending then 2 else 0
  else if s.busy && r.unspecifiedWhileBusy then 1
  else 0

/-- A legal access: "n = 4 and addr mod 4 = 0" (20_memory.md R52). -/
def accessLegal (off size : Nat) : Bool := decide (size = 4) && decide (off % 4 = 0)

/-- A refused access: E_ACC, an error response iff BUS_ERR, and nothing else (20_memory.md R53). -/
def State.refuseAccess (s : State) (data : Option Word) : State := (s.raise .acc).respond data s.params.busErr

/-- A legal read: "A read changes nothing" of the block (20_memory.md R57). A reserved offset reads 0 (R54). -/
def State.readLegal (s : State) (off : Nat) : State :=
  match Reg.ofOffset off with
  | some r => { s with draws := s.draws + s.drawsFor r }.respond (some (s.observed r)) false
  | none => s.respond (some 0) false

/-- A host read at a byte offset of the window (20_memory.md R52 to R54). "A refused read returns data 0". -/
def State.busRead (s : State) (off size : Nat) : State :=
  if accessLegal off size then s.readLegal off else s.refuseAccess (some 0)

/-- An accepted write of v to a register other than CMD: CFG and POLY also clear VALID, ST_DONE and ST_PASS (10_state.md
R24, R25), STATUS is W1C (R34), the read-only registers ignore it (20_memory.md R54), the others store the word (R57). -/
def State.writeReg (s : State) (r : Reg) (v : Word) : State :=
  match r with
  | .cfg => { s with cfg := v.extractLsb' 0 5 }.invalidate
  | .cmd => s
  | .status => s.clearErrors v
  | .cap => s
  | .polyLo => { s with poly := joinWords (hi32 s.poly) v }.invalidate
  | .polyHi => { s with poly := joinWords v (lo32 s.poly) }.invalidate
  | .initLo => { s with init := joinWords (hi32 s.init) v }
  | .initHi => { s with init := joinWords v (lo32 s.init) }
  | .xoroutLo => { s with xorout := joinWords (hi32 s.xorout) v }
  | .xoroutHi => { s with xorout := joinWords v (lo32 s.xorout) }
  | .checkLo => { s with check := joinWords (hi32 s.check) v }
  | .checkHi => { s with check := joinWords v (lo32 s.check) }
  | .crcLo => { s with crc := joinWords (hi32 s.crc) v }
  | .crcHi => { s with crc := joinWords v (lo32 s.crc) }
  | .resultLo => s
  | .resultHi => s
  | .pnormLo => s
  | .pnormHi => s
  | .prevLo => s
  | .prevHi => s
  | .din0 => { s with din0 := v }
  | .din1 => { s with din1 := v }
  | .din2 => { s with din2 := v }
  | .din3 => { s with din3 := v }

/-- What a step does: it is over, or it runs a command (its issue, or its completion when the command is PENDING). -/
inductive Action where
  | done (s : State)
  | run (i : Instr) (s : State)

/-- A legal write to CMD while the block is not busy: decode the word (60_exceptions.md R201). -/
def State.writeCmd (s : State) (v : Word) : Action :=
  match decode s.sliceMax v with
  | .command i => .run i s
  | .absent => .done (s.raise .opc)
  | .illFormed => .done (s.raise .arg)

/-- A host write at a byte offset of the window, the checks in the order of 60_exceptions.md R210: legality, busy (R213),
then the register. A reserved offset ignores the write (20_memory.md R54). -/
def State.busWrite (s : State) (off size : Nat) (v : Word) : Action :=
  if accessLegal off size then
    if s.busy then .done ((s.raise .busy).respond none false)
    else
      match Reg.ofOffset off with
      | some .cmd => (s.respond none false).writeCmd v
      | some r => .done ((s.respond none false).writeReg r v)
      | none => .done (s.respond none false)
  else .done (s.refuseAccess none)

/-- The byte offset of a platform address inside the 4096-byte window at BASE, none outside it (20_memory.md R50; log 11). -/
def offsetOf (p : Params) (addr : Nat) : Option Nat :=
  if p.base ≤ addr ∧ addr < p.base + 4096 then some (addr - p.base) else none

/-- The first host action is taken off the list and done. `WAIT` reads STATUS and stays while BUSY reads 1
(30_encoding.md R83). With nothing left to do the host is idle. -/
def hostTurn (s : State) : Action :=
  match s.host with
  | [] => .done s
  | .idle :: rest => .done { s with host := rest }
  | .reset :: rest => .done { s with host := rest }.resetBlock
  | .wait :: rest => .done ({ s with host := if s.busy then s.host else rest }.busRead (Reg.offset .status) 4)
  | .read addr size :: rest =>
    match offsetOf s.params addr with
    | some off => .done ({ s with host := rest }.busRead off size)
    | none => .done { s with host := rest }
  | .write addr size v :: rest =>
    match offsetOf s.params addr with
    | some off => { s with host := rest }.busWrite off size v
    | none => .done { s with host := rest }

/-- The host's next action is to assert reset. -/
def State.resetNext (s : State) : Bool :=
  match s.host with
  | .reset :: _ => true
  | _ => false

/-- Which agent moves, and what it does. A pending command whose cycles have passed completes, ordered between two host
accesses (20_memory.md R59); otherwise the host acts and a pending command comes one cycle nearer (log 2). A reset goes
before a completion (70_reset_and_hazards.md R230; log 4). -/
def nextAction (s : State) : Action :=
  match s.pending with
  | none => hostTurn s
  | some i =>
    if s.resetNext then hostTurn s
    else if s.countdown = 0 then .run i s
    else hostTurn { s with countdown := s.countdown - 1 }

end Sys2Proof.Machine
end

