-- ==== Sys2Proof/Machine/Bitwise.lean ====
section
/-! DEFINITION. The bitwise reference engine and UPD_BIT (41_bitwise_engine.md). -/

namespace Sys2Proof.Machine

/-- One of the eight rounds of bit_step, NonReflected: the bit shifted out of the top selects the Normal-form polynomial
(41_bitwise_engine.md R140). -/
def roundUp {w : Nat} (pn c : BitVec w) : BitVec w :=
  if c.getLsbD (w - 1) then (c <<< 1) ^^^ pn else c <<< 1

/-- One round, Reflected: the bit shifted out of the bottom selects the Reverse-form polynomial (41_bitwise_engine.md R140). -/
def roundDown {w : Nat} (pr c : BitVec w) : BitVec w :=
  if c.getLsbD 0 then (c >>> 1) ^^^ pr else c >>> 1

/-- `repeat n times`. -/
def repeatRound {w : Nat} (f : BitVec w → BitVec w) : Nat → BitVec w → BitVec w
  | 0, c => c
  | n + 1, c => repeatRound f n (f c)

/-- `bit_step(c, b)` (41_bitwise_engine.md R140). RF = 0: the byte enters the most significant byte. RF = 1: it enters
the low byte, and `PR = rev_W(PN)` (00_scope.md R14; log 14). -/
def bitStep {w : Nat} (refl : Bool) (pn : BitVec w) (c : BitVec w) (b : Byte) : BitVec w :=
  if refl then repeatRound (roundDown (rev pn)) 8 (c ^^^ b.setWidth w)
  else repeatRound (roundUp pn) 8 (c ^^^ (b.setWidth w <<< (w - 8)))

/-- `upd_bit(c, B)`, the fold of bit_step, first byte first (41_bitwise_engine.md R142). -/
def updBit {w : Nat} (refl : Bool) (pn : BitVec w) : BitVec w → List Byte → BitVec w
  | c, [] => c
  | c, b :: bs => updBit refl pn (bitStep refl pn c b) bs

/-- The effect every UPD_* command has, for its engine's update function: "if LEN = 0: nothing changes", else
`CRC <- zext_64(…)` (41_bitwise_engine.md R141, R144). -/
def updateEffect (len : BitVec 5) (s : State) (upd : BitVec s.W → List Byte → BitVec s.W) : State :=
  if len = 0 then s else s.setCrc (upd s.crcW (s.inputBytes len))

/-- UPD_BIT (41_bitwise_engine.md R141). -/
def execUpdBit (len : BitVec 5) (s : State) : Host.Outcome State Fault Refusal :=
  runCommand (.updBit len) (fun s => updateEffect len s (updBit s.refl s.pn)) s

end Sys2Proof.Machine
end

