-- ==== Sys2Proof/Machine/TableEngine.lean ====
section
/-! DEFINITION. The table-driven engine and UPD_TBL (42_table_engine.md). -/

namespace Sys2Proof.Machine

/-- The low byte of a W-bit value. -/
def lowByte {w : Nat} (c : BitVec w) : Byte := c.setWidth 8

/-- `topByte(c) = c >> (W-8)` (42_table_engine.md R150). -/
def topByte {w : Nat} (c : BitVec w) : Byte := (c >>> (w - 8)).setWidth 8

/-- `tbl_step(c, b)` over the base table T[0] (42_table_engine.md R150). At W = 8 both bit orders use `T[0][c ^ b]`,
with no rotation (90_conflicts.md C2). -/
def tblStep {w : Nat} (refl : Bool) (t0 : Byte → BitVec w) (c : BitVec w) (b : Byte) : BitVec w :=
  if w = 8 then t0 (lowByte c ^^^ b)
  else if refl then (c >>> 8) ^^^ t0 (lowByte c ^^^ b)
  else (c <<< 8) ^^^ t0 (topByte c ^^^ b)

/-- `upd_tbl(c, B)`, the fold of tbl_step (42_table_engine.md R150). -/
def updTbl {w : Nat} (refl : Bool) (t0 : Byte → BitVec w) : BitVec w → List Byte → BitVec w
  | c, [] => c
  | c, b :: bs => updTbl refl t0 (tblStep refl t0 c b) bs

/-- UPD_TBL (42_table_engine.md R151). -/
def execUpdTbl (len : BitVec 5) (s : State) : Host.Outcome State Fault Refusal :=
  runCommand (.updTbl len) (fun s => updateEffect len s (updTbl s.refl (s.table 0))) s

end Sys2Proof.Machine
end

