-- ==== Sys2Proof/Machine/SliceEngine.lean ====
section
/-! DEFINITION. The slicing engines and UPD_S4, UPD_S8, UPD_S16 (43_slice_engine.md). -/

namespace Sys2Proof.Machine

/-- The bit position of register byte j: from the low end for Reflected, from the top for NonReflected
(43_slice_engine.md R160). -/
def bytePos (w : Nat) (refl : Bool) (j : Nat) : Nat := if refl then 8 * j else w - 8 - 8 * j

/-- Register byte j, in stream order. -/
def registerByte {w : Nat} (refl : Bool) (x : BitVec w) (j : Nat) : Byte := (x >>> bytePos w refl j).setWidth 8

/-- Stream byte j of a group. -/
def streamByte (b : List Byte) (j : Nat) : Byte := b.getD j 0

/-- `x`: the register with the m first stream bytes folded into the register bytes they meet (43_slice_engine.md R160). -/
def foldStream {w : Nat} (refl : Bool) (c : BitVec w) (b : List Byte) (m : Nat) : BitVec w :=
  (List.range m).foldl (fun x j => x ^^^ ((streamByte b j).setWidth w <<< bytePos w refl j)) c

/-- The part of the register an N-byte group does not consume (43_slice_engine.md R160). -/
def unconsumed {w : Nat} (refl : Bool) (n : Nat) (x : BitVec w) : BitVec w :=
  if 8 * n < w then (if refl then x >>> (8 * n) else x <<< (8 * n)) else 0

/-- The index stream byte j uses: the register byte it was folded with, or itself beyond the register
(43_slice_engine.md R160). -/
def sliceIndex {w : Nat} (refl : Bool) (x : BitVec w) (b : List Byte) (j : Nat) : Byte :=
  if j < w / 8 then registerByte refl x j else streamByte b j

/-- `slice_step(N, c, b[0..N-1])` over the tables t (43_slice_engine.md R160). -/
def sliceStep {w : Nat} (refl : Bool) (t : Nat → Byte → BitVec w) (n : Nat) (c : BitVec w) (b : List Byte) : BitVec w :=
  let x := foldStream refl c b (min n (w / 8))
  (List.range n).foldl (fun r j => r ^^^ t (n - 1 - j) (sliceIndex refl x b j)) (unconsumed refl n x)

/-- `upd_slice(N, c, B)` with at most `fuel` whole groups: groups of N bytes while they last, then the remaining bytes
by tbl_step (43_slice_engine.md R161). -/
def sliceGroups {w : Nat} (refl : Bool) (t : Nat → Byte → BitVec w) (n : Nat) :
    Nat → BitVec w → List Byte → BitVec w
  | 0, c, bs => updTbl refl (t 0) c bs
  | fuel + 1, c, bs =>
    if n ≤ bs.length then sliceGroups refl t n fuel (sliceStep refl t n c (bs.take n)) (bs.drop n)
    else updTbl refl (t 0) c bs

/-- `upd_slice(N, c, B)` (43_slice_engine.md R161). A sequence holds no more groups than bytes. -/
def updSlice {w : Nat} (refl : Bool) (t : Nat → Byte → BitVec w) (n : Nat) (c : BitVec w) (bs : List Byte) : BitVec w :=
  sliceGroups refl t n bs.length c bs

/-- UPD_S4 (43_slice_engine.md R162). -/
def execUpdS4 (len : BitVec 5) (s : State) : Host.Outcome State Fault Refusal :=
  runCommand (.updS4 len) (fun s => updateEffect len s (updSlice s.refl s.table 4)) s

/-- UPD_S8 (43_slice_engine.md R163). On an instance without it the issue raises E_OPC. -/
def execUpdS8 (len : BitVec 5) (s : State) : Host.Outcome State Fault Refusal :=
  runCommand (.updS8 len) (fun s => updateEffect len s (updSlice s.refl s.table 8)) s

/-- UPD_S16 (43_slice_engine.md R164). On an instance without it the issue raises E_OPC. -/
def execUpdS16 (len : BitVec 5) (s : State) : Host.Outcome State Fault Refusal :=
  runCommand (.updS16 len) (fun s => updateEffect len s (updSlice s.refl s.table 16)) s

end Sys2Proof.Machine
end

