-- ==== Sys2Proof/Machine/TableBuilder.lean ====
section
/-! DEFINITION. The lookup-table builder and TBL_READ (44_table_builder.md). -/

namespace Sys2Proof.Machine

/-- The entries at the powers of two 1, 2, 4, …, NonReflected, from a first one, ascending: each is the one before it
after one shift-and-reduce step (44_table_builder.md R181). -/
def seedsUp {w : Nat} (pn : BitVec w) : Nat → BitVec w → List (BitVec w)
  | 0, _ => []
  | n + 1, p => p :: seedsUp pn n (roundUp pn p)

/-- The entries at the powers of two, Reflected, from the one at index 128 downwards, given in ascending order
(44_table_builder.md R182). -/
def seedsDown {w : Nat} (pr : BitVec w) : Nat → BitVec w → List (BitVec w) → List (BitVec w)
  | 0, _, acc => acc
  | n + 1, p, acc => seedsDown pr n (roundDown pr p) (p :: acc)

/-- The seeds T[0][1], T[0][2], …, T[0][128]: T[0][1] = PN and upwards for NonReflected, T[0][128] = PR and downwards
for Reflected (44_table_builder.md R181, R182). -/
def seeds {w : Nat} (refl : Bool) (pn : BitVec w) : List (BitVec w) :=
  if refl then seedsDown (rev pn) 8 (rev pn) [] else seedsUp pn 8 pn

/-- The XOR fill: for each power of two i in ascending order, `T[0][i+j] = T[0][i] ^ T[0][j]` for j < i, with
T[0][0] = 0 (44_table_builder.md R181, R182; 90_conflicts.md C6). -/
def fillTable {w : Nat} (ps : List (BitVec w)) : List (BitVec w) :=
  ps.foldl (fun t p => t ++ t.map (fun e => p ^^^ e)) [0#w]

/-- T[0] (44_table_builder.md R180 to R182). -/
def baseTable {w : Nat} (refl : Bool) (pn : BitVec w) : List (BitVec w) := fillTable (seeds refl pn)

/-- One entry of T[k] from the same entry e of T[k-1] (44_table_builder.md R183; 90_conflicts.md C1). -/
def chainEntry {w : Nat} (refl : Bool) (t0 : List (BitVec w)) (e : BitVec w) : BitVec w :=
  if refl then (e >>> 8) ^^^ t0.getD (lowByte e).toNat 0 else (e <<< 8) ^^^ t0.getD (topByte e).toNat 0

/-- The row after T[k-1], and n-1 more. -/
def chainRows {w : Nat} (refl : Bool) (t0 : List (BitVec w)) : Nat → List (BitVec w) → List (List (BitVec w))
  | 0, _ => []
  | n + 1, row => row :: chainRows refl t0 n (row.map (chainEntry refl t0))

/-- T[0] to T[K-1] (44_table_builder.md R183; 90_conflicts.md C5). -/
def tableRows {w : Nat} (refl : Bool) (pn : BitVec w) (kMax : Nat) : List (List (BitVec w)) :=
  chainRows refl (baseTable refl pn) kMax (baseTable refl pn)

/-- `build_tables(W, RF, PN)`: all K_MAX tables, "each entry is stored zero-extended to 64 bits"
(44_table_builder.md R185). -/
def buildTables {w : Nat} (refl : Bool) (pn : BitVec w) (kMax : Nat) : TableStore :=
  .built ((tableRows refl pn kMax).map (fun row => row.map zext64))

/-- TBL_READ (44_table_builder.md R187). -/
def execTblRead (k : BitVec 4) (v : Byte) (s : State) : Host.Outcome State Fault Refusal :=
  runCommand (.tblRead k v) (fun s => s.setResult (s.table k.toNat v)) s

end Sys2Proof.Machine
end

