-- ==== Sys2Proof/Machine/ParamSet.lean ====
section
/-! DEFINITION. The parameter set commands NOP, CONSTRUCT, INIT, FINAL and SELFTEST (40_parameter_set.md). -/

namespace Sys2Proof.Machine

/-- NOP (40_parameter_set.md R100): "at completion, nothing changes". -/
def execNop (s : State) : Host.Outcome State Fault Refusal := runCommand .nop id s

/-- The completion of CONSTRUCT from the representation f: PNORM, PREV, the tables, VALID (40_parameter_set.md R101). -/
def constructFrom (f : PolyFormat) (s : State) : State :=
  { s with
    pnorm := zext64 (toNormal f s.polyW)
    prev := zext64 (rev (toNormal f s.polyW))
    tables := buildTables s.refl (toNormal f s.polyW) s.sliceMax.kMax
    valid := true }

/-- The completion of CONSTRUCT (40_parameter_set.md R101). With the reserved PFMT a CONSTRUCT is never pending: its
issue raises E_PFMT, "and has no other effect" (60_exceptions.md R203; log 13). -/
def constructEffect (s : State) : State :=
  match s.polyFormat with
  | some f => constructFrom f s
  | none => s

/-- CONSTRUCT (40_parameter_set.md R101). -/
def execConstruct (s : State) : Host.Outcome State Fault Refusal := runCommand .construct constructEffect s

/-- INIT (40_parameter_set.md R110): `CRC <- zext_64(INIT[W-1:0])`, "unmodified". -/
def execInit (s : State) : Host.Outcome State Fault Refusal := runCommand .init (fun s => s.setCrc s.initW) s

/-- FINAL (40_parameter_set.md R111): `RESULT <- zext_64(CRC[W-1:0] ^ XOROUT[W-1:0])`. -/
def execFinalize (s : State) : Host.Outcome State Fault Refusal :=
  runCommand .finalize (fun s => s.setResult (s.crcW ^^^ s.xoroutW)) s

/-- CHECKVEC, the ASCII string "123456789" (40_parameter_set.md R113). -/
def checkVector : List Byte := [0x31, 0x32, 0x33, 0x34, 0x35, 0x36, 0x37, 0x38, 0x39]

/-- `update_ENG(c, B)` (40_parameter_set.md R112). -/
def engineUpdate (eng : Engine) (s : State) : BitVec s.W → List Byte → BitVec s.W :=
  match eng with
  | .bit => updBit s.refl s.pn
  | .tbl => updTbl s.refl (s.table 0)
  | .s4 => updSlice s.refl s.table 4
  | .s8 => updSlice s.refl s.table 8
  | .s16 => updSlice s.refl s.table 16

/-- `r`, the finalised check computation (40_parameter_set.md R112). -/
def selftestValue (eng : Engine) (s : State) : BitVec s.W := engineUpdate eng s s.initW checkVector ^^^ s.xoroutW

/-- The completion of SELFTEST: RESULT, ST_PASS, ST_DONE; CRC and DIN are not changed (40_parameter_set.md R112). -/
def selftestEffect (eng : Engine) (s : State) : State :=
  { s with
    result := zext64 (selftestValue eng s)
    stPass := decide (selftestValue eng s = s.checkW)
    stDone := true }

/-- SELFTEST (40_parameter_set.md R112). -/
def execSelftest (eng : Engine) (s : State) : Host.Outcome State Fault Refusal :=
  runCommand (.selftest eng) (selftestEffect eng) s

end Sys2Proof.Machine
end

