-- ==== Sys2Proof/Machine/Reserved.lean ====
section
/-! DEFINITION. The reserved OPs 0xB to 0xF: each "sets STATUS.E_OPC and has no other effect" (60_exceptions.md R202).
A reserved OP is never present (30_encoding.md R80), so its issue always raises and none is ever accepted; the
completion, which no run reaches, has no effect. -/

namespace Sys2Proof.Machine

/-- The reserved OP 0xB. -/
def execReservedB (rest : BitVec 28) (s : State) : Host.Outcome State Fault Refusal :=
  runCommand (.reservedB rest) id s

/-- The reserved OP 0xC. -/
def execReservedC (rest : BitVec 28) (s : State) : Host.Outcome State Fault Refusal :=
  runCommand (.reservedC rest) id s

/-- The reserved OP 0xD. -/
def execReservedD (rest : BitVec 28) (s : State) : Host.Outcome State Fault Refusal :=
  runCommand (.reservedD rest) id s

/-- The reserved OP 0xE. -/
def execReservedE (rest : BitVec 28) (s : State) : Host.Outcome State Fault Refusal :=
  runCommand (.reservedE rest) id s

/-- The reserved OP 0xF. -/
def execReservedF (rest : BitVec 28) (s : State) : Host.Outcome State Fault Refusal :=
  runCommand (.reservedF rest) id s

end Sys2Proof.Machine
end

