-- ==== Sys2Proof/Machine/Dispatch.lean ====
section
/-! DEFINITION. One arm for each command: its meaning (40_parameter_set.md to 44_table_builder.md; 60_exceptions.md R202). -/

namespace Sys2Proof.Machine

def exec (i : Instr) (s : State) : Host.Outcome State Fault Refusal :=
  match i with
  | .nop => Sys2Proof.Machine.execNop s
  | .construct => Sys2Proof.Machine.execConstruct s
  | .init => Sys2Proof.Machine.execInit s
  | .updBit len => Sys2Proof.Machine.execUpdBit len s
  | .updTbl len => Sys2Proof.Machine.execUpdTbl len s
  | .updS4 len => Sys2Proof.Machine.execUpdS4 len s
  | .updS8 len => Sys2Proof.Machine.execUpdS8 len s
  | .updS16 len => Sys2Proof.Machine.execUpdS16 len s
  | .finalize => Sys2Proof.Machine.execFinalize s
  | .selftest eng => Sys2Proof.Machine.execSelftest eng s
  | .tblRead k v => Sys2Proof.Machine.execTblRead k v s
  | .reservedB rest => Sys2Proof.Machine.execReservedB rest s
  | .reservedC rest => Sys2Proof.Machine.execReservedC rest s
  | .reservedD rest => Sys2Proof.Machine.execReservedD rest s
  | .reservedE rest => Sys2Proof.Machine.execReservedE rest s
  | .reservedF rest => Sys2Proof.Machine.execReservedF rest s

end Sys2Proof.Machine
end

