-- ==== Sys2Proof/Machine/Step.lean ====
section
/-! DEFINITION. One step of the machine (20_memory.md R58, R59), and how a command word is put in front of it. -/

namespace Sys2Proof.Machine

/-- One step: the next host action, or the completion of the pending command (Machine/Bus.lean, `nextAction`). -/
def step (s : State) : Host.Outcome State Fault Refusal :=
  match nextAction s with
  | .done t => .next t
  | .run i t => exec i t

/-- The state whose next step runs the command word w: the block is idle, and the host's next action is a legal write of
w to CMD (30_encoding.md R70; log 3). The bits of w above `nbits` are 0. -/
def State.withFetchWord (s : State) (nbits w : Nat) : State :=
  { s with
    pending := none
    countdown := 0
    host := .write (s.params.base + Reg.offset .cmd) 4 (BitVec.ofNat 32 (w % 2 ^ nbits)) :: s.host }

end Sys2Proof.Machine
end

