-- ==== Sys2Proof/Machine/HostProgram.lean ====
section
/-! DEFINITION. The host's syntax and pseudo-instructions as lists of host actions (30_encoding.md R82, R83). -/

namespace Sys2Proof.Machine.HostProgram

/-- `WR <reg>, <imm32>`: a legal write (30_encoding.md R82). -/
def wr (p : Params) (r : Reg) (v : Word) : List HostAction := [.write (p.base + r.offset) 4 v]

/-- `RD <reg>`: a legal read (30_encoding.md R82). -/
def rd (p : Params) (r : Reg) : List HostAction := [.read (p.base + r.offset) 4]

/-- A command line stands for `WR CMD, <word>` (30_encoding.md R82). -/
def command (p : Params) (i : Instr) : List HostAction := wr p .cmd (encode i)

/-- `WAIT` (30_encoding.md R83). -/
def waitIdle : List HostAction := [.wait]

/-- `WR64 <REG>, <imm64>`: the LO half, then the HI half (30_encoding.md R83). -/
def wr64 (p : Params) (lo hi : Reg) (v : Dword) : List HostAction := wr p lo (lo32 v) ++ wr p hi (hi32 v)

/-- `RD64 <REG>`: the LO half, then the HI half (30_encoding.md R83). -/
def rd64 (p : Params) (lo hi : Reg) : List HostAction := rd p lo ++ rd p hi

/-- The word that holds up to four stream bytes, byte i in bits 8i+7:8i, the unused high bytes 0 (30_encoding.md R83). -/
def packWord (bytes : List Byte) : Word :=
  (bytes.getD 3 0) ++ (bytes.getD 2 0) ++ (bytes.getD 1 0) ++ (bytes.getD 0 0)

/-- `LOADDIN "<bytes>"`: "one write per group of 4 bytes, for as many groups as the bytes need" (30_encoding.md R83).
DESIGN CHOICE (log 19): R83 gives the writes for DIN0 to DIN3 and does not say what more than 16 bytes expand to; the
bytes after the sixteenth are dropped here. -/
def loadDin (p : Params) (bytes : List Byte) : List HostAction :=
  ((if 0 < bytes.length then wr p .din0 (packWord bytes) else []) ++
   (if 4 < bytes.length then wr p .din1 (packWord (bytes.drop 4)) else [])) ++
  ((if 8 < bytes.length then wr p .din2 (packWord (bytes.drop 8)) else []) ++
   (if 12 < bytes.length then wr p .din3 (packWord (bytes.drop 12)) else []))

/-- `CLEARERR`: `WR STATUS, 0x00007F00` (30_encoding.md R83). -/
def clearErr (p : Params) : List HostAction := wr p .status 0x00007F00

end Sys2Proof.Machine.HostProgram
end

