-- ==== Sys2Proof/Safety.lean ====
section
/-! DEFINITION. What a coherent state of the block is: the promises the spec makes of every state a run reaches
(10_state.md R26, R32, R33, R37, R38; 60_exceptions.md R201). -/

namespace Sys2Proof.Machine

/-- The tables have their form: K_MAX rows of 256 entries (10_state.md R37), or nothing built yet. -/
def TableStore.wf (m : SliceMax) (t : TableStore) : Bool :=
  match t with
  | .unspecified => true
  | .built rows => decide (rows.length = m.kMax) && rows.all (fun row => decide (row.length = 256))

/-- What VALID = 1 promises of the parameter set written in the representation f (10_state.md R26, R32): POLY is
well-formed, PNORM and PREV hold its Normal and Reverse forms, and the tables are those built from it. -/
structure State.Constructed (s : State) (f : PolyFormat) : Prop where
  format : s.polyFormat = some f
  definingBit : definingBitSet f s.polyW = true
  pnormIs : s.pnorm = zext64 (toNormal f s.polyW)
  prevIs : s.prev = zext64 (rev (toNormal f s.polyW))
  tablesAre : s.tables = buildTables s.refl (toNormal f s.polyW) s.sliceMax.kMax

/-- A coherent state. -/
structure State.Inv (s : State) : Prop where
  /-- The pending command passed every check of its issue, and still would (60_exceptions.md R201; 20_memory.md R62). -/
  pendingAccepted : ∀ i, s.pending = some i → commandError i s = none
  /-- VALID = 1 means the parameter set is constructed (10_state.md R26). -/
  validConstructed : s.valid = true → ∃ f, s.Constructed f
  /-- With VALID = 0 the tables' contents are unspecified (10_state.md R37). -/
  invalidUnspecified : s.valid = false → s.tables = .unspecified
  /-- ST_PASS is set only together with ST_DONE (10_state.md R33). -/
  passDone : s.stPass = true → s.stDone = true
  /-- A self-test result stands only for the constructed parameter set (70_reset_and_hazards.md R245). -/
  doneValid : s.stDone = true → s.valid = true

/-- The host's next action is a write at a byte offset of the window; `rest` comes after it. -/
def State.NextWrite (s : State) (off size : Nat) (v : Word) (rest : List HostAction) : Prop :=
  s.host = .write (s.params.base + off) size v :: rest

/-- The host's next action is a read at a byte offset of the window; `rest` comes after it. -/
def State.NextRead (s : State) (off size : Nat) (rest : List HostAction) : Prop :=
  s.host = .read (s.params.base + off) size :: rest

/-- The state with its next host action taken and answered: the word a read returns, or none. -/
def State.answered (s : State) (rest : List HostAction) (data : Option Word) (err : Bool) : State :=
  { s with host := rest, resp := ⟨data, err⟩ }

/-- A pending command comes one cycle nearer its completion (log 2). -/
def State.elapsed (s : State) : State := { s with countdown := s.countdown - 1 }

/-- A cycle passes on the host's turn: a pending command comes one nearer, and nothing happens to an idle block. -/
def State.tick (s : State) : State := if s.pending = none then s else s.elapsed

/-- The host has the turn: nothing is pending, or the pending command's cycles have not passed yet (log 2). -/
def State.HostsTurn (s : State) : Prop := s.pending = none ∨ s.countdown ≠ 0

/-- What a legal write of the word w to CMD does where w is the command i and `check` is what i's rule checks at issue
(60_exceptions.md R201): E_BUSY and nothing else while BUSY = 1; otherwise the one error `check` finds and nothing else;
otherwise `PENDING <- i`. -/
def IssuesAs (i : Instr) (w : Word) (check : State → Option ErrorCode) : Prop :=
  ∀ (s : State) (rest : List HostAction), s.NextWrite 0x004 4 w rest →
    (s.pending ≠ none → s.countdown ≠ 0 → step s = .next ((s.answered rest none false).elapsed.raise .busy)) ∧
    (∀ e, s.pending = none → check s = some e → step s = .next ((s.answered rest none false).raise e)) ∧
    (s.pending = none → check s = none → step s = .next ((s.answered rest none false).accept i))

/-- A legal write of the word w to CMD, where the instance satisfies `on`, sets one error bit and does nothing else. -/
def RefusesWith (on : SliceMax → Prop) (w : Word) (e : ErrorCode) : Prop :=
  ∀ (s : State) (rest : List HostAction), s.NextWrite 0x004 4 w rest → s.pending = none → on s.sliceMax →
    step s = .next ((s.answered rest none false).raise e)

/-- POLY's defining bit for CFG.PFMT = 0 is bit 0, for 1 and 2 it is bit W-1 (10_state.md R31). -/
def State.definingBitOfPoly (s : State) : Bool :=
  if s.cfg.extractLsb' 3 2 = 0 then s.poly.getLsbD 0 else s.poly.getLsbD (s.W - 1)

/-- The check of CONSTRUCT: E_PFMT before E_POLY (60_exceptions.md R203, R204, R211). -/
def constructCheck (s : State) : Option ErrorCode :=
  if s.cfg.extractLsb' 3 2 = 3 then some .pfmt else if s.definingBitOfPoly then none else some .poly

/-- The check of a command that requires VALID (60_exceptions.md R206). -/
def validCheck (s : State) : Option ErrorCode := if s.valid then none else some .nocfg

/-- The check of an UPD_* command: LEN at most 16, then VALID (30_encoding.md R73; 60_exceptions.md R211). -/
def updateCheck (len : BitVec 5) (s : State) : Option ErrorCode :=
  if 16 < len.toNat then some .arg else validCheck s

/-- The completion of an UPD_* command that leaves c in CRC (20_memory.md R59): nothing but CRC and PENDING changes. -/
def State.finishedWithCrc (s : State) (c : Dword) : State := { s with crc := c, pending := none, countdown := 0 }

/-- The completion of a command that leaves r in RESULT: nothing but RESULT and PENDING changes. -/
def State.finishedWithResult (s : State) (r : Dword) : State := { s with result := r, pending := none, countdown := 0 }

end Sys2Proof.Machine
end

