-- ==== Sys2Proof/Certificates/Slice0/Obligations.lean ====
section
/-! DEFINITION. The statements for the provers. Each says in its docstring which rules of spec/ it rests on. -/

open Sys2Proof Sys2Proof.Machine

/-! ## Encoding -/

/-- Decoding the word of a command gives the command back, for every command of the instance with every operand the
encoding admits (30_encoding.md R72 to R75, R77); and so for the reserved OPs with any bits 31:4: that a reserved OP
decodes to a command is the model's choice, log 8 (the decoder of R80 answers ILLEGAL). -/
def Obligations.DecodeEncodeRoundTrip : Prop :=
  ∀ (m : SliceMax) (i : Instr), i.wellFormed m = true ∨ i.isReserved = true → decode m (encode i) = .command i

/-- A word that decodes to a command is that command's only word, and the command is well-formed or a reserved OP
(30_encoding.md R79). -/
def Obligations.EncodeInvertsDecode : Prop :=
  ∀ (m : SliceMax) (w : Word) (i : Instr), decode m w = .command i →
    encode i = w ∧ (i.wellFormed m = true ∨ i.isReserved = true)

/-- The decoder of 30_encoding.md R80 on every one of the 2^32 words, its fields read by division and remainder: the
present OPs with their formats, the absent engines and the reserved OPs. -/
def Obligations.DecodeFollowsTheOpcodeMap : Prop :=
  ∀ (m : SliceMax) (w : Word),
    let n := w.toNat
    let len := BitVec.ofNat 5 (n / 16)
    let okU : Prop := n / 512 = 0 ∧ n / 16 % 32 ≤ 16
    let okT : Prop := n / 2 ^ 20 = 0 ∧ n / 16 % 16 = 0 ∧ n / 256 % 16 < m.kMax
    (n % 16 = 0x0 → decode m w = if n / 16 = 0 then .command .nop else .illFormed) ∧
    (n % 16 = 0x1 → decode m w = if n / 16 = 0 then .command .construct else .illFormed) ∧
    (n % 16 = 0x2 → decode m w = if n / 16 = 0 then .command .init else .illFormed) ∧
    (n % 16 = 0x3 → (okU → decode m w = .command (.updBit len)) ∧ (¬ okU → decode m w = .illFormed)) ∧
    (n % 16 = 0x4 → (okU → decode m w = .command (.updTbl len)) ∧ (¬ okU → decode m w = .illFormed)) ∧
    (n % 16 = 0x5 → (okU → decode m w = .command (.updS4 len)) ∧ (¬ okU → decode m w = .illFormed)) ∧
    (n % 16 = 0x6 → (m.kMax < 8 → decode m w = .absent) ∧
      (8 ≤ m.kMax → (okU → decode m w = .command (.updS8 len)) ∧ (¬ okU → decode m w = .illFormed))) ∧
    (n % 16 = 0x7 → (m.kMax < 16 → decode m w = .absent) ∧
      (m.kMax = 16 → (okU → decode m w = .command (.updS16 len)) ∧ (¬ okU → decode m w = .illFormed))) ∧
    (n % 16 = 0x8 → decode m w = if n / 16 = 0 then .command .finalize else .illFormed) ∧
    (n % 16 = 0x9 →
      (n / 16 = 0 → decode m w = .command (.selftest .bit)) ∧
      (n / 16 = 1 → decode m w = .command (.selftest .tbl)) ∧
      (n / 16 = 2 → decode m w = .command (.selftest .s4)) ∧
      (n / 16 = 3 → decode m w = if 8 ≤ m.kMax then .command (.selftest .s8) else .illFormed) ∧
      (n / 16 = 4 → decode m w = if m.kMax = 16 then .command (.selftest .s16) else .illFormed) ∧
      (5 ≤ n / 16 → decode m w = .illFormed)) ∧
    (n % 16 = 0xA → (okT → decode m w = .command (.tblRead (BitVec.ofNat 4 (n / 256)) (BitVec.ofNat 8 (n / 4096)))) ∧
      (¬ okT → decode m w = .illFormed)) ∧
    (n % 16 = 0xB → decode m w = .command (.reservedB (BitVec.ofNat 28 (n / 16)))) ∧
    (n % 16 = 0xC → decode m w = .command (.reservedC (BitVec.ofNat 28 (n / 16)))) ∧
    (n % 16 = 0xD → decode m w = .command (.reservedD (BitVec.ofNat 28 (n / 16)))) ∧
    (n % 16 = 0xE → decode m w = .command (.reservedE (BitVec.ofNat 28 (n / 16)))) ∧
    (n % 16 = 0xF → decode m w = .command (.reservedF (BitVec.ofNat 28 (n / 16))))

/-- Words written out from the formats of 30_encoding.md R72 to R75 decode to the commands they stand for. decodeTableWord
asks the instance with SLICE_MAX = 16, the model's choice, log 1: with SLICE_MAX = 4 the words of UPD_S8 and of
TBL_READ k=7 are E_OPC and E_ARG. That the reserved OP 0xB is a command is the model's choice, log 8. -/
def Obligations.SampleWordsDecode : Prop :=
  decodeTableWord 32 0x00000000 = some .nop ∧
  decodeTableWord 32 0x00000095 = some (.updS4 9) ∧
  decodeTableWord 32 0x00000106 = some (.updS8 16) ∧
  decodeTableWord 32 0x00000029 = some (.selftest .s4) ∧
  decodeTableWord 32 0x0000170A = some (.tblRead 7 0x01) ∧
  decodeTableWord 32 0x0000000B = some (.reservedB 0) ∧
  decodeTableWord 32 0x00000114 = none

/-! ## The step -/

/-- When the host's next action is a legal write to CMD of a word that decodes to i, and nothing is pending, the step is
exec of i on the state with that write taken and answered (60_exceptions.md R201; 20_memory.md R58). The state
`withFetchWord` makes is such a state. -/
def Obligations.StepRunsTheDecodedCommand : Prop :=
  (∀ (s : State) (w : Word) (rest : List HostAction) (i : Instr), s.NextWrite 0x004 4 w rest → s.pending = none →
    decode s.sliceMax w = .command i → step s = exec i (s.answered rest none false)) ∧
  (∀ (s : State) (w : Word) (i : Instr), decode s.sliceMax w = .command i →
    step (s.withFetchWord 32 w.toNat) = exec i { s with pending := none, countdown := 0, resp := ⟨none, false⟩ })

/-- A command completes at once and raises no exception: exec of the pending command answers a next state with PENDING
none, the error bits as they were and no host action taken; and the step is exec of that command when its cycles have
passed and no reset comes first (20_memory.md R59; 60_exceptions.md R207; logs 2 and 4). -/
def Obligations.CompletionIsOneStepWithoutError : Prop :=
  ∀ (s : State) (i : Instr), s.pending = some i →
    (∃ t, exec i s = .next t ∧ t.pending = none ∧ t.errs = s.errs ∧ t.host = s.host) ∧
    (s.countdown = 0 → s.resetNext = false → step s = exec i s)

/-- The handling of a legal write of w to CMD, check by check in the order of 60_exceptions.md R201: E_BUSY, E_OPC, E_ARG,
E_NOCFG, E_PFMT, E_POLY; then `PENDING <- d`. With countdown 0 the step of a busy block is the completion: log 2. -/
def Obligations.IssueChecksInOrder : Prop :=
  ∀ (s : State) (w : Word) (rest : List HostAction), s.NextWrite 0x004 4 w rest →
    (s.pending ≠ none → s.countdown ≠ 0 → step s = .next ((s.answered rest none false).elapsed.raise .busy)) ∧
    (s.pending = none → decode s.sliceMax w = .absent → step s = .next ((s.answered rest none false).raise .opc)) ∧
    (s.pending = none → decode s.sliceMax w = .illFormed → step s = .next ((s.answered rest none false).raise .arg)) ∧
    (∀ i, s.pending = none → decode s.sliceMax w = .command i →
      (i.isReserved = true → step s = .next ((s.answered rest none false).raise .opc)) ∧
      (i.isReserved = false → i ≠ .nop → i ≠ .construct → s.valid = false →
        step s = .next ((s.answered rest none false).raise .nocfg)) ∧
      (i.isReserved = false → i ≠ .construct → (i = .nop ∨ s.valid = true) →
        step s = .next ((s.answered rest none false).accept i)) ∧
      (i = .construct → s.cfg.extractLsb' 3 2 = 3 → step s = .next ((s.answered rest none false).raise .pfmt)) ∧
      (i = .construct → s.cfg.extractLsb' 3 2 ≠ 3 → s.definingBitOfPoly = false →
        step s = .next ((s.answered rest none false).raise .poly)) ∧
      (i = .construct → s.cfg.extractLsb' 3 2 ≠ 3 → s.definingBitOfPoly = true →
        step s = .next ((s.answered rest none false).accept .construct)))

/-- The machine always goes on: no state makes a step stop (60_exceptions.md R212: "The block stays ready for the next
access"). -/
def Obligations.EveryStepAnswersANextState : Prop := ∀ s : State, ∃ t, step s = .next t

/-- Every accepted command completes: from any state with a command pending, whatever the host does, nothing is pending
after at most countdown + 1 steps (70_reset_and_hazards.md R247, as a bound; log 2). -/
def Obligations.EveryAcceptedCommandCompletes : Prop :=
  ∀ (s : State) (i : Instr), s.pending = some i →
    ∃ (k : Nat) (t : State), k ≤ s.countdown + 1 ∧ Host.Core.run Sys2Proof.core k s = .next t ∧ t.pending = none

/-- WAIT polls STATUS: with BUSY = 1 the poll reads BUSY 1 and WAIT stays; with BUSY = 0 it reads BUSY 0 and WAIT is over;
and after an accepted command it comes to its end: the polls, the completion and the last poll (30_encoding.md R83;
70_reset_and_hazards.md R247 as a bound; log 2). -/
def Obligations.WaitLoopTerminates : Prop :=
  ∀ (s : State) (rest : List HostAction), s.host = .wait :: rest →
    (s.pending = none → step s = .next (s.answered rest (some (s.stored .status)) false) ∧ (s.stored .status).getLsbD 0 = false) ∧
    (s.pending ≠ none → s.countdown ≠ 0 →
      ∃ t, step s = .next t ∧ t.host = s.host ∧ t.pending = s.pending ∧ t.errs = s.errs ∧
        ∃ d : Word, t.resp = ⟨some d, false⟩ ∧ d.getLsbD 0 = true) ∧
    (s.pending ≠ none → ∃ (k : Nat) (t : State), k ≤ s.countdown + 2 ∧
      Host.Core.run Sys2Proof.core k s = .next t ∧ t.pending = none ∧ t.host = rest)

/-! ## Errors -/

/-- An access of size other than 4, or at an offset not a multiple of 4, changes nothing but E_ACC; a refused read
returns 0; the bus carries an error response iff BUS_ERR; whether or not BUSY = 1 (20_memory.md R53). That the host has
the turn, and a pending command comes one cycle nearer, is the model's choice, log 2. -/
def Obligations.IllegalAccessIsRefused : Prop :=
  ∀ (s : State) (off size : Nat) (v : Word) (rest : List HostAction), off < 4096 → ¬ (size = 4 ∧ off % 4 = 0) →
    s.HostsTurn →
    (s.NextWrite off size v rest → step s = .next ((s.answered rest none s.params.busErr).tick.raise .acc)) ∧
    (s.NextRead off size rest → step s = .next ((s.answered rest (some 0) s.params.busErr).tick.raise .acc))

/-- While BUSY = 1 every legal write, to any offset, is dropped and sets E_BUSY; legal reads are performed and change
nothing of the block (60_exceptions.md R213). With countdown 0 the step is the completion instead: log 2. -/
def Obligations.WritesWhileBusyAreDropped : Prop :=
  ∀ (s : State) (off : Nat) (v : Word) (rest : List HostAction), off < 4096 → off % 4 = 0 → s.pending ≠ none →
    s.countdown ≠ 0 →
    (s.NextWrite off 4 v rest → step s = .next ((s.answered rest none false).elapsed.raise .busy)) ∧
    (s.NextRead off 4 rest → ∃ (d : Word) (n : Nat),
      step s = .next { (s.answered rest (some d) false).elapsed with draws := s.draws + n })

/-- A CMD word whose OP is reserved, or names UPD_S8 or UPD_S16 on an instance without that engine, sets E_OPC and has no
other effect (60_exceptions.md R202). -/
def Obligations.ReservedOpcodeRaisesOpc : Prop :=
  (∀ w : Word, 0xB ≤ w.toNat % 16 → RefusesWith (fun _ => True) w .opc) ∧
  (∀ w : Word, w.toNat % 16 = 0x6 → RefusesWith (fun m => m.kMax < 8) w .opc) ∧
  (∀ w : Word, w.toNat % 16 = 0x7 → RefusesWith (fun m => m.kMax < 16) w .opc)

/-- The five reserved rows of the opcode table as commands: each answers the next state in which E_OPC is set and nothing
else is changed (60_exceptions.md R202; that a reserved OP is a command of Instr is the model's choice, log 8). -/
def Obligations.ReservedCommandsRaiseOpc : Prop :=
  ∀ (s : State) (rest : BitVec 28), s.pending = none →
    exec (.reservedB rest) s = .next { s with errs := s.errs ||| 0b0000100#7 } ∧
    exec (.reservedC rest) s = .next { s with errs := s.errs ||| 0b0000100#7 } ∧
    exec (.reservedD rest) s = .next { s with errs := s.errs ||| 0b0000100#7 } ∧
    exec (.reservedE rest) s = .next { s with errs := s.errs ||| 0b0000100#7 } ∧
    exec (.reservedF rest) s = .next { s with errs := s.errs ||| 0b0000100#7 }

/-- A CMD word with a present OP that is not well-formed sets E_ARG and has no other effect (60_exceptions.md R205;
30_encoding.md R79): a reserved bit not 0, LEN > 16, ENG reserved or absent, TK >= K_MAX. -/
def Obligations.IllFormedWordRaisesArg : Prop :=
  ∀ w : Word,
    (w.toNat % 16 ∈ [0x0, 0x1, 0x2, 0x8] → w.toNat / 16 ≠ 0 → RefusesWith (fun _ => True) w .arg) ∧
    (w.toNat % 16 ∈ [0x3, 0x4, 0x5] → (w.toNat / 512 ≠ 0 ∨ 16 < w.toNat / 16 % 32) →
      RefusesWith (fun _ => True) w .arg) ∧
    (w.toNat % 16 = 0x6 → (w.toNat / 512 ≠ 0 ∨ 16 < w.toNat / 16 % 32) → RefusesWith (fun m => 8 ≤ m.kMax) w .arg) ∧
    (w.toNat % 16 = 0x7 → (w.toNat / 512 ≠ 0 ∨ 16 < w.toNat / 16 % 32) → RefusesWith (fun m => m.kMax = 16) w .arg) ∧
    (w.toNat % 16 = 0x9 → (w.toNat / 128 ≠ 0 ∨ 5 ≤ w.toNat / 16 % 8) → RefusesWith (fun _ => True) w .arg) ∧
    (w.toNat = 0x39 → RefusesWith (fun m => m.kMax < 8) w .arg) ∧
    (w.toNat = 0x49 → RefusesWith (fun m => m.kMax < 16) w .arg) ∧
    (w.toNat % 16 = 0xA → (w.toNat / 2 ^ 20 ≠ 0 ∨ w.toNat / 16 % 16 ≠ 0) → RefusesWith (fun _ => True) w .arg) ∧
    (w.toNat % 16 = 0xA → RefusesWith (fun m => m.kMax ≤ w.toNat / 256 % 16) w .arg)

/-- INIT, UPD_BIT, UPD_TBL, UPD_S4, UPD_S8, UPD_S16, FINAL, SELFTEST and TBL_READ, issued with VALID = 0, each set
E_NOCFG and have no other effect (60_exceptions.md R206). -/
def Obligations.CommandsBeforeConstructRaiseNocfg : Prop :=
  ∀ (s : State) (i : Instr) (rest : List HostAction), s.NextWrite 0x004 4 (encode i) rest → s.pending = none →
    i.wellFormed s.sliceMax = true → i ≠ .nop → i ≠ .construct → s.valid = false →
    step s = .next ((s.answered rest none false).raise .nocfg)

/-- CONSTRUCT with CFG.PFMT = 3 sets E_PFMT, and with CFG.PFMT in 0, 1, 2 and the defining bit of POLY[W-1:0] equal to 0
sets E_POLY; each has no other effect; in a coherent state VALID is then 0 and stays 0 (60_exceptions.md R203, R204). -/
def Obligations.ConstructRefusesIllFormedPolynomials : Prop :=
  ∀ (s : State) (rest : List HostAction), s.NextWrite 0x004 4 0x00000001#32 rest → s.pending = none →
    (s.cfg.extractLsb' 3 2 = 3 → step s = .next ((s.answered rest none false).raise .pfmt)) ∧
    (s.cfg.extractLsb' 3 2 ≠ 3 → s.definingBitOfPoly = false →
      step s = .next ((s.answered rest none false).raise .poly)) ∧
    (s.Inv → s.cfg.extractLsb' 3 2 = 3 ∨ s.definingBitOfPoly = false → s.valid = false)

/-- One step sets at most one error bit, and clears one only by an accepted write to STATUS or by reset (60_exceptions.md
R210, R214; 10_state.md R33, R34). -/
def Obligations.ErrorBitsOverAStep : Prop :=
  ∀ s t : State, step s = .next t →
    t.errs = s.errs ∨
    (∃ e : ErrorCode, t.errs = s.errs ||| e.bit) ∨
    (∃ (v : Word) (rest : List HostAction), s.NextWrite 0x008 4 v rest ∧ s.pending = none ∧
      t.errs = s.errs &&& ~~~ (v.extractLsb' 8 7)) ∨
    (s.resetNext = true ∧ t.errs = 0)

/-! ## Reset -/

/-- Reset asserted at any time, a command pending or not: every register becomes 0, PENDING none, the tables unspecified,
and CAP keeps its value; the block is then as after power-on (70_reset_and_hazards.md R230). -/
def Obligations.ResetFromAnyState : Prop :=
  ∀ (s : State) (rest : List HostAction), s.host = .reset :: rest →
    ∃ t, step s = .next t ∧ t.cfg = 0 ∧ t.poly = 0 ∧ t.init = 0 ∧ t.xorout = 0 ∧ t.check = 0 ∧ t.crc = 0 ∧
      t.result = 0 ∧ t.pnorm = 0 ∧ t.prev = 0 ∧ t.din0 = 0 ∧ t.din1 = 0 ∧ t.din2 = 0 ∧ t.din3 = 0 ∧
      t.stored .status = 0 ∧ t.stored .cap = s.stored .cap ∧ t.pending = none ∧ t.tables = .unspecified ∧
      t.host = rest ∧ { t with host := [], draws := 0, resp := ⟨none, false⟩ } = State.resetOf s.params

/-- The reset state in derived terms, on every instance: BUSY, VALID, ST_DONE, ST_PASS and every error bit 0; W = 8,
NonReflected, Normal; and a CONSTRUCT issued straight after reset raises E_POLY (70_reset_and_hazards.md R231). -/
def Obligations.ResetStateInDerivedTerms : Prop :=
  ∀ p : Params, (State.resetOf p).busy = false ∧ (State.resetOf p).valid = false ∧ (State.resetOf p).stDone = false ∧
    (State.resetOf p).stPass = false ∧ (State.resetOf p).errs = 0 ∧ (State.resetOf p).W = 8 ∧
    (State.resetOf p).refl = false ∧ (State.resetOf p).polyFormat = some .normal ∧
    step { State.resetOf p with host := HostProgram.command p .construct } = .next ((State.resetOf p).raise .poly)

/-! ## Registers -/

/-- An accepted write to CFG stores v[4:0] and clears VALID, ST_DONE and ST_PASS, whether or not the value changed
(10_state.md R24). -/
def Obligations.CfgWriteInvalidates : Prop :=
  ∀ (s : State) (v : Word) (rest : List HostAction), s.NextWrite 0x000 4 v rest → s.pending = none →
    ∃ ts : TableStore, step s = .next { s.answered rest none false with
      cfg := v.setWidth 5, valid := false, stDone := false, stPass := false, tables := ts }

/-- An accepted write to POLY_LO or POLY_HI stores the word in its half and clears VALID, ST_DONE and ST_PASS
(10_state.md R25; 20_memory.md R56); after it, as after a CFG write, the tables' contents are unspecified (R37; log 7). -/
def Obligations.PolyWriteInvalidates : Prop :=
  ∀ (s : State) (v : Word) (rest : List HostAction), s.pending = none →
    (s.NextWrite 0x010 4 v rest → step s = .next { s.answered rest none false with
      poly := (s.poly &&& 0xFFFFFFFF00000000) ||| v.setWidth 64
      valid := false, stDone := false, stPass := false, tables := .unspecified }) ∧
    (s.NextWrite 0x014 4 v rest → step s = .next { s.answered rest none false with
      poly := (s.poly &&& 0x00000000FFFFFFFF) ||| (v.setWidth 64 <<< 32)
      valid := false, stDone := false, stPass := false, tables := .unspecified })

/-- A write to INIT, XOROUT, CHECK, CRC or DIN stores the word in its place and does nothing else; CRC is stored unmasked
(20_memory.md R57, R56; 10_state.md R27, R28, R29). -/
def Obligations.DataWritesStoreTheWord : Prop :=
  ∀ (s : State) (v : Word) (rest : List HostAction), s.pending = none →
    (s.NextWrite 0x018 4 v rest → step s = .next { s.answered rest none false with
      init := (s.init &&& 0xFFFFFFFF00000000) ||| v.setWidth 64 }) ∧
    (s.NextWrite 0x01C 4 v rest → step s = .next { s.answered rest none false with
      init := (s.init &&& 0x00000000FFFFFFFF) ||| (v.setWidth 64 <<< 32) }) ∧
    (s.NextWrite 0x020 4 v rest → step s = .next { s.answered rest none false with
      xorout := (s.xorout &&& 0xFFFFFFFF00000000) ||| v.setWidth 64 }) ∧
    (s.NextWrite 0x024 4 v rest → step s = .next { s.answered rest none false with
      xorout := (s.xorout &&& 0x00000000FFFFFFFF) ||| (v.setWidth 64 <<< 32) }) ∧
    (s.NextWrite 0x028 4 v rest → step s = .next { s.answered rest none false with
      check := (s.check &&& 0xFFFFFFFF00000000) ||| v.setWidth 64 }) ∧
    (s.NextWrite 0x02C 4 v rest → step s = .next { s.answered rest none false with
      check := (s.check &&& 0x00000000FFFFFFFF) ||| (v.setWidth 64 <<< 32) }) ∧
    (s.NextWrite 0x030 4 v rest → step s = .next { s.answered rest none false with
      crc := (s.crc &&& 0xFFFFFFFF00000000) ||| v.setWidth 64 }) ∧
    (s.NextWrite 0x034 4 v rest → step s = .next { s.answered rest none false with
      crc := (s.crc &&& 0x00000000FFFFFFFF) ||| (v.setWidth 64 <<< 32) }) ∧
    (s.NextWrite 0x050 4 v rest → step s = .next { s.answered rest none false with din0 := v }) ∧
    (s.NextWrite 0x054 4 v rest → step s = .next { s.answered rest none false with din1 := v }) ∧
    (s.NextWrite 0x058 4 v rest → step s = .next { s.answered rest none false with din2 := v }) ∧
    (s.NextWrite 0x05C 4 v rest → step s = .next { s.answered rest none false with din3 := v })

/-- An accepted write of v to STATUS clears each error bit written with 1 and changes nothing else; BUSY, VALID, ST_DONE
and ST_PASS stay (10_state.md R34). -/
def Obligations.StatusWriteClearsErrors : Prop :=
  ∀ (s : State) (v : Word) (rest : List HostAction), s.NextWrite 0x008 4 v rest → s.pending = none →
    step s = .next { s.answered rest none false with errs := s.errs &&& ~~~ ((v >>> 8).setWidth 7) }

/-- A legal read of a reserved offset or of CMD returns 0; a legal write to a reserved offset or to a read-only register
changes nothing and raises no error, but for a write while BUSY = 1 (20_memory.md R54). -/
def Obligations.ReservedAndReadOnlyOffsets : Prop :=
  ∀ (s : State) (off : Nat) (v : Word) (rest : List HostAction), off < 4096 → off % 4 = 0 →
    (off = 0x004 ∨ 0x060 ≤ off → s.HostsTurn → s.NextRead off 4 rest → step s = .next (s.answered rest (some 0) false).tick) ∧
    (off ∈ [0x00C, 0x038, 0x03C, 0x040, 0x044, 0x048, 0x04C] ∨ 0x060 ≤ off → s.pending = none →
      s.NextWrite off 4 v rest → step s = .next (s.answered rest none false))

/-- The register map: what a legal read of each offset returns while BUSY = 0, the low half of a 64-bit register at the
lower offset; a read changes nothing (10_state.md R22; 20_memory.md R55, R57). -/
def Obligations.RegisterMapReads : Prop :=
  ∀ (s : State) (off : Nat) (d : Word) (rest : List HostAction), s.pending = none → s.NextRead off 4 rest →
    (off, d) ∈ [(0x000, s.cfg.setWidth 32), (0x004, 0), (0x010, s.poly.setWidth 32), (0x014, (s.poly >>> 32).setWidth 32),
      (0x018, s.init.setWidth 32), (0x01C, (s.init >>> 32).setWidth 32),
      (0x020, s.xorout.setWidth 32), (0x024, (s.xorout >>> 32).setWidth 32),
      (0x028, s.check.setWidth 32), (0x02C, (s.check >>> 32).setWidth 32),
      (0x030, s.crc.setWidth 32), (0x034, (s.crc >>> 32).setWidth 32),
      (0x038, s.result.setWidth 32), (0x03C, (s.result >>> 32).setWidth 32),
      (0x040, s.pnorm.setWidth 32), (0x044, (s.pnorm >>> 32).setWidth 32),
      (0x048, s.prev.setWidth 32), (0x04C, (s.prev >>> 32).setWidth 32),
      (0x050, s.din0), (0x054, s.din1), (0x058, s.din2), (0x05C, s.din3)] →
    step s = .next (s.answered rest (some d) false)

/-- The STATUS word while BUSY = 0: BUSY, VALID, ST_DONE, ST_PASS in bits 0 to 3, the error bits in bits 14:8, 0 in every
other bit (10_state.md R33); and raising the error of code n sets bit n of the error bits, so STATUS bit 8 + n, and
changes nothing else (60_exceptions.md R200, R212). -/
def Obligations.StatusAndErrorBitLayout : Prop :=
  (∀ (s : State) (rest : List HostAction), s.pending = none → s.NextRead 0x008 4 rest →
    ∃ d : Word, step s = .next (s.answered rest (some d) false) ∧
      d.getLsbD 0 = false ∧ d.getLsbD 1 = s.valid ∧ d.getLsbD 2 = s.stDone ∧ d.getLsbD 3 = s.stPass ∧
      d.extractLsb' 4 4 = 0 ∧ d.extractLsb' 8 7 = s.errs ∧ d.extractLsb' 15 17 = 0) ∧
  ∀ s : State,
    s.raise .acc = { s with errs := s.errs ||| 0b0000001#7 } ∧
    s.raise .busy = { s with errs := s.errs ||| 0b0000010#7 } ∧
    s.raise .opc = { s with errs := s.errs ||| 0b0000100#7 } ∧
    s.raise .arg = { s with errs := s.errs ||| 0b0001000#7 } ∧
    s.raise .nocfg = { s with errs := s.errs ||| 0b0010000#7 } ∧
    s.raise .pfmt = { s with errs := s.errs ||| 0b0100000#7 } ∧
    s.raise .poly = { s with errs := s.errs ||| 0b1000000#7 }

/-- CAP reads 0, 1 or 2 for SLICE_MAX = 4, 8 or 16, busy or not; writes to it are ignored; and no step changes it
(10_state.md R36). -/
def Obligations.CapIsConstant : Prop :=
  (∀ (s : State) (rest : List HostAction), s.HostsTurn → s.NextRead 0x00C 4 rest →
    step s = .next (s.answered rest (some (if s.sliceMax.kMax = 4 then 0 else if s.sliceMax.kMax = 8 then 1 else 2)) false).tick) ∧
  (∀ (s : State) (v : Word) (rest : List HostAction), s.pending = none → s.NextWrite 0x00C 4 v rest →
    step s = .next (s.answered rest none false)) ∧
  (∀ s t : State, step s = .next t → t.params = s.params)

/-- Reads while BUSY = 1: CRC, RESULT, PNORM and PREV return a fresh free draw; VALID is a free draw while CONSTRUCT is
pending, ST_DONE and ST_PASS while SELFTEST is pending; BUSY reads 1, and everything else reads its stored value
(70_reset_and_hazards.md R242; 10_state.md R35; log 6). -/
def Obligations.ReadsWhileBusy : Prop :=
  ∀ (s : State) (i : Instr) (r : Reg) (rest : List HostAction), s.pending = some i → s.countdown ≠ 0 →
    s.NextRead r.offset 4 rest →
    (r ∈ [.crcLo, .crcHi, .resultLo, .resultHi, .pnormLo, .pnormHi, .prevLo, .prevHi] →
      step s = .next { (s.answered rest (some (Config.freeWord s.draws)) false).elapsed with draws := s.draws + 1 }) ∧
    (r ∈ [.cfg, .cmd, .cap, .polyLo, .polyHi, .initLo, .initHi, .xoroutLo, .xoroutHi, .checkLo, .checkHi,
        .din0, .din1, .din2, .din3] →
      step s = .next (s.answered rest (some (s.stored r)) false).elapsed) ∧
    (r = .status → ∃ (d : Word) (n : Nat),
      step s = .next { (s.answered rest (some d) false).elapsed with draws := s.draws + n } ∧
      d.getLsbD 0 = true ∧ d.extractLsb' 8 7 = s.errs ∧ d.extractLsb' 4 4 = 0 ∧ d.extractLsb' 15 17 = 0 ∧
      (i ≠ .construct → d.getLsbD 1 = s.valid) ∧
      ((∀ e, i ≠ .selftest e) → d.getLsbD 2 = s.stDone ∧ d.getLsbD 3 = s.stPass))

/-- A word written to a read-write register is read back by the next access, CFG keeping only v[4:0] (10_state.md R22,
R23; 20_memory.md R57, R58). -/
def Obligations.WrittenRegistersReadBack : Prop :=
  ∀ (s : State) (r : Reg) (v : Word) (rest : List HostAction), s.pending = none →
    r ∈ [.cfg, .polyLo, .polyHi, .initLo, .initHi, .xoroutLo, .xoroutHi, .checkLo, .checkHi, .crcLo, .crcHi,
      .din0, .din1, .din2, .din3] →
    s.host = HostProgram.wr s.params r v ++ HostProgram.rd s.params r ++ rest →
    ∃ t, Host.Core.run Sys2Proof.core 2 s = .next t ∧ t.host = rest ∧
      t.resp = ⟨some (if r = .cfg then v &&& 0x1F else v), false⟩

/-- The input window: D[i] is bits 8i+7:8i of DIN3 to DIN0 laid side by side, and LEN bytes are taken from D[0]
(10_state.md R29; 20_memory.md R55). -/
def Obligations.InputBytesAreTheWindow : Prop :=
  ∀ (s : State) (len : BitVec 5), len.toNat ≤ 16 →
    s.inputBytes len =
      (List.range len.toNat).map (fun i => (s.din3 ++ s.din2 ++ s.din1 ++ s.din0).extractLsb' (8 * i) 8)

/-- LOADDIN presents the bytes in array order: after its writes, D[0..n-1] are the n bytes (30_encoding.md R83;
20_memory.md R55). -/
def Obligations.LoadDinPresentsTheBytes : Prop :=
  ∀ (s : State) (bytes : List Byte) (rest : List HostAction), s.pending = none → bytes.length ≤ 16 →
    s.host = HostProgram.loadDin s.params bytes ++ rest →
    ∃ (k : Nat) (t : State), Host.Core.run Sys2Proof.core k s = .next t ∧ t.host = rest ∧
      t.window.take bytes.length = bytes ∧ t.errs = s.errs

/-! ## Commands

In each rule below, the E_BUSY clause of `IssuesAs` asks that the pending command's cycles have not passed, and a
completion clears `countdown`: both are the model's choice, log 2. -/

/-- NOP (40_parameter_set.md R100): word 0x00000000; no check; at completion nothing changes but PENDING. -/
def Obligations.NopRule : Prop :=
  encode .nop = 0x00000000#32 ∧
  IssuesAs .nop 0x00000000#32 (fun _ => none) ∧
  (∀ w : Word, w.toNat % 16 = 0x0 → w.toNat / 16 ≠ 0 → RefusesWith (fun _ => True) w .arg) ∧
  ∀ s : State, s.pending = some .nop → exec .nop s = .next { s with pending := none, countdown := 0 }

/-- CONSTRUCT (40_parameter_set.md R101): word 0x00000001; E_PFMT, then E_POLY, and no other effect; at completion PNORM,
PREV, the tables and VALID, and nothing else but PENDING. -/
def Obligations.ConstructRule : Prop :=
  encode .construct = 0x00000001#32 ∧
  IssuesAs .construct 0x00000001#32 constructCheck ∧
  (∀ w : Word, w.toNat % 16 = 0x1 → w.toNat / 16 ≠ 0 → RefusesWith (fun _ => True) w .arg) ∧
  ∀ (s : State) (f : PolyFormat), s.pending = some .construct → s.polyFormat = some f →
    exec .construct s = .next { s with
      pnorm := zext64 (toNormal f (s.poly.setWidth s.W))
      prev := zext64 (rev (toNormal f (s.poly.setWidth s.W)))
      tables := buildTables s.refl (toNormal f (s.poly.setWidth s.W)) s.sliceMax.kMax
      valid := true
      pending := none
      countdown := 0 }

/-- INIT (40_parameter_set.md R110): word 0x00000002; requires VALID; at completion CRC <- zext_64(INIT[W-1:0]). -/
def Obligations.InitRule : Prop :=
  encode .init = 0x00000002#32 ∧
  IssuesAs .init 0x00000002#32 validCheck ∧
  (∀ w : Word, w.toNat % 16 = 0x2 → w.toNat / 16 ≠ 0 → RefusesWith (fun _ => True) w .arg) ∧
  ∀ s : State, s.pending = some .init → exec .init s = .next (s.finishedWithCrc (zext64 (s.init.setWidth s.W)))

/-- FINAL (40_parameter_set.md R111): word 0x00000008; requires VALID; at completion
RESULT <- zext_64(CRC[W-1:0] ^ XOROUT[W-1:0]), CRC unchanged. -/
def Obligations.FinalRule : Prop :=
  encode .finalize = 0x00000008#32 ∧
  IssuesAs .finalize 0x00000008#32 validCheck ∧
  (∀ w : Word, w.toNat % 16 = 0x8 → w.toNat / 16 ≠ 0 → RefusesWith (fun _ => True) w .arg) ∧
  ∀ s : State, s.pending = some .finalize →
    exec .finalize s = .next (s.finishedWithResult (zext64 (s.crc.setWidth s.W ^^^ s.xorout.setWidth s.W)))

/-- SELFTEST (40_parameter_set.md R112): word (ENG << 4) | 0x9; E_ARG for an absent or reserved engine; requires VALID; at
completion RESULT, ST_PASS and ST_DONE from the check vector "123456789", and nothing else but PENDING. -/
def Obligations.SelftestRule : Prop :=
  (encode (.selftest .bit) = 0x09#32 ∧ encode (.selftest .tbl) = 0x19#32 ∧ encode (.selftest .s4) = 0x29#32 ∧
    encode (.selftest .s8) = 0x39#32 ∧ encode (.selftest .s16) = 0x49#32) ∧
  (∀ e : Engine, IssuesAs (.selftest e) (encode (.selftest e)) (fun s =>
    if (e = .s8 ∧ s.sliceMax.kMax < 8) ∨ (e = .s16 ∧ s.sliceMax.kMax < 16) then some .arg else validCheck s)) ∧
  (∀ w : Word, w.toNat % 16 = 0x9 → (w.toNat / 128 ≠ 0 ∨ 5 ≤ w.toNat / 16 % 8) → RefusesWith (fun _ => True) w .arg) ∧
  ∀ (s : State) (e : Engine), s.pending = some (.selftest e) →
    exec (.selftest e) s = .next
      (let r := engineUpdate e s (s.init.setWidth s.W)
          [0x31, 0x32, 0x33, 0x34, 0x35, 0x36, 0x37, 0x38, 0x39] ^^^ s.xorout.setWidth s.W
       { s with result := zext64 r, stPass := decide (r = s.check.setWidth s.W), stDone := true, pending := none,
                countdown := 0 })

/-- UPD_BIT (41_bitwise_engine.md R141, R144): word (LEN << 4) | 0x3; E_ARG for LEN > 16; requires VALID; at completion
CRC <- zext_64(upd_bit(CRC[W-1:0], D[0..LEN-1])), and with LEN = 0 nothing changes. -/
def Obligations.UpdBitRule : Prop :=
  ∀ len : BitVec 5, encode (.updBit len) = (len.setWidth 32 <<< 4) ||| 0x3#32 ∧
    IssuesAs (.updBit len) (encode (.updBit len)) (updateCheck len) ∧
    (∀ w : Word, w.toNat % 16 = 0x3 → w.toNat / 512 ≠ 0 → RefusesWith (fun _ => True) w .arg) ∧
    ∀ s : State, s.pending = some (.updBit len) → exec (.updBit len) s = .next (s.finishedWithCrc
      (if len = 0 then s.crc else zext64 (updBit s.refl s.pn (s.crc.setWidth s.W) (s.inputBytes len))))

/-- UPD_TBL (42_table_engine.md R151): word (LEN << 4) | 0x4; E_ARG for LEN > 16; requires VALID; at completion
CRC <- zext_64(upd_tbl(CRC[W-1:0], D[0..LEN-1])) over T[0], and with LEN = 0 nothing changes. -/
def Obligations.UpdTblRule : Prop :=
  ∀ len : BitVec 5, encode (.updTbl len) = (len.setWidth 32 <<< 4) ||| 0x4#32 ∧
    IssuesAs (.updTbl len) (encode (.updTbl len)) (updateCheck len) ∧
    (∀ w : Word, w.toNat % 16 = 0x4 → w.toNat / 512 ≠ 0 → RefusesWith (fun _ => True) w .arg) ∧
    ∀ s : State, s.pending = some (.updTbl len) → exec (.updTbl len) s = .next (s.finishedWithCrc
      (if len = 0 then s.crc else zext64 (updTbl s.refl (s.table 0) (s.crc.setWidth s.W) (s.inputBytes len))))

/-- UPD_S4 (43_slice_engine.md R162): word (LEN << 4) | 0x5; E_ARG for LEN > 16; requires VALID; at completion
CRC <- zext_64(upd_slice(4, CRC[W-1:0], D[0..LEN-1])), and with LEN = 0 nothing changes. -/
def Obligations.UpdS4Rule : Prop :=
  ∀ len : BitVec 5, encode (.updS4 len) = (len.setWidth 32 <<< 4) ||| 0x5#32 ∧
    IssuesAs (.updS4 len) (encode (.updS4 len)) (updateCheck len) ∧
    (∀ w : Word, w.toNat % 16 = 0x5 → w.toNat / 512 ≠ 0 → RefusesWith (fun _ => True) w .arg) ∧
    ∀ s : State, s.pending = some (.updS4 len) → exec (.updS4 len) s = .next (s.finishedWithCrc
      (if len = 0 then s.crc else zext64 (updSlice s.refl s.table 4 (s.crc.setWidth s.W) (s.inputBytes len))))

/-- UPD_S8 (43_slice_engine.md R163): word (LEN << 4) | 0x6; E_OPC where SLICE_MAX < 8; else as UPD_S4 with
upd_slice(8, …). -/
def Obligations.UpdS8Rule : Prop :=
  ∀ len : BitVec 5, encode (.updS8 len) = (len.setWidth 32 <<< 4) ||| 0x6#32 ∧
    IssuesAs (.updS8 len) (encode (.updS8 len))
      (fun s => if s.sliceMax.kMax < 8 then some .opc else updateCheck len s) ∧
    (∀ w : Word, w.toNat % 16 = 0x6 → w.toNat / 512 ≠ 0 →
      RefusesWith (fun m => m.kMax < 8) w .opc ∧ RefusesWith (fun m => 8 ≤ m.kMax) w .arg) ∧
    ∀ s : State, s.pending = some (.updS8 len) → exec (.updS8 len) s = .next (s.finishedWithCrc
      (if len = 0 then s.crc else zext64 (updSlice s.refl s.table 8 (s.crc.setWidth s.W) (s.inputBytes len))))

/-- UPD_S16 (43_slice_engine.md R164): word (LEN << 4) | 0x7; E_OPC where SLICE_MAX < 16; else as UPD_S4 with
upd_slice(16, …). -/
def Obligations.UpdS16Rule : Prop :=
  ∀ len : BitVec 5, encode (.updS16 len) = (len.setWidth 32 <<< 4) ||| 0x7#32 ∧
    IssuesAs (.updS16 len) (encode (.updS16 len))
      (fun s => if s.sliceMax.kMax < 16 then some .opc else updateCheck len s) ∧
    (∀ w : Word, w.toNat % 16 = 0x7 → w.toNat / 512 ≠ 0 →
      RefusesWith (fun m => m.kMax < 16) w .opc ∧ RefusesWith (fun m => m.kMax = 16) w .arg) ∧
    ∀ s : State, s.pending = some (.updS16 len) → exec (.updS16 len) s = .next (s.finishedWithCrc
      (if len = 0 then s.crc else zext64 (updSlice s.refl s.table 16 (s.crc.setWidth s.W) (s.inputBytes len))))

/-- TBL_READ (44_table_builder.md R187): word (v << 12) | (k << 8) | 0xA; E_ARG for TK >= K_MAX; requires VALID; at
completion RESULT <- zext_64(T[k][v]); and in a coherent state with VALID = 1, T[k][0] reads 0. -/
def Obligations.TblReadRule : Prop :=
  ∀ (k : BitVec 4) (v : Byte),
    encode (.tblRead k v) = (v.setWidth 32 <<< 12) ||| (k.setWidth 32 <<< 8) ||| 0xA#32 ∧
    IssuesAs (.tblRead k v) (encode (.tblRead k v))
      (fun s => if k.toNat < s.sliceMax.kMax then validCheck s else some .arg) ∧
    (∀ w : Word, w.toNat % 16 = 0xA → (w.toNat / 2 ^ 20 ≠ 0 ∨ w.toNat / 16 % 16 ≠ 0) →
      RefusesWith (fun _ => True) w .arg) ∧
    (∀ s : State, s.pending = some (.tblRead k v) →
      exec (.tblRead k v) s = .next (s.finishedWithResult (zext64 (s.table k.toNat v)))) ∧
    (∀ s : State, s.Inv → s.valid = true → k.toNat < s.sliceMax.kMax → s.table k.toNat 0 = 0)

/-! ## What the engines and the builder compute -/

/-- bit_step is linear over XOR, for every width, bit order and polynomial (41_bitwise_engine.md R146). -/
def Obligations.BitStepIsLinear : Prop :=
  ∀ (W : Width) (refl : Bool) (pn c1 c2 : BitVec W.bits) (b1 b2 : Byte),
    bitStep refl pn (c1 ^^^ c2) (b1 ^^^ b2) = bitStep refl pn c1 b1 ^^^ bitStep refl pn c2 b2

/-- The base table, built by the doubling trick, holds bit_step(0, v) at every byte v (44_table_builder.md R180, R181,
R182). -/
def Obligations.BaseTableIsBitwise : Prop :=
  ∀ (W : Width) (refl : Bool) (pn : BitVec W.bits) (v : Byte),
    (baseTable refl pn)[v.toNat]? = some (bitStep refl pn 0 v)

/-- Every chained table holds the bitwise result of v followed by k zero bytes; equivalently of a K-byte zero buffer with
v at position K-1-k; equivalently one tbl_step of the entry before it (44_table_builder.md R184). -/
def Obligations.ChainedTablesAreBitwise : Prop :=
  ∀ (W : Width) (refl : Bool) (pn : BitVec W.bits) (kMax k : Nat) (v : Byte), k < kMax →
    (buildTables refl pn kMax).entry k v = zext64 (updBit refl pn 0 (v :: List.replicate k 0)) ∧
    (∀ n, k < n → (buildTables refl pn kMax).entry k v =
      zext64 (updBit refl pn 0 (List.replicate (n - 1 - k) 0 ++ v :: List.replicate k 0))) ∧
    (1 ≤ k → (buildTables refl pn kMax).entry k v =
      zext64 (tblStep refl (fun x => ((buildTables refl pn kMax).entry 0 x).setWidth W.bits)
        (((buildTables refl pn kMax).entry (k - 1) v).setWidth W.bits) 0))

/-- Table entries are linear in their index, and entry 0 is 0 (44_table_builder.md R186). -/
def Obligations.TableEntriesAreLinear : Prop :=
  ∀ (W : Width) (refl : Bool) (pn : BitVec W.bits) (kMax k : Nat) (a b : Byte), k < kMax →
    (buildTables refl pn kMax).entry k (a ^^^ b) =
      (buildTables refl pn kMax).entry k a ^^^ (buildTables refl pn kMax).entry k b ∧
    (buildTables refl pn kMax).entry k 0 = 0

/-- The table step is the bitwise step, for a base table that holds bit_step(0, v), and hence upd_tbl is upd_bit
(42_table_engine.md R152). -/
def Obligations.TableStepIsBitStep : Prop :=
  ∀ (W : Width) (refl : Bool) (pn c : BitVec W.bits) (t0 : Byte → BitVec W.bits) (b : Byte),
    (∀ v, t0 v = bitStep refl pn 0 v) →
      tblStep refl t0 c b = bitStep refl pn c b ∧ ∀ bs, updTbl refl t0 c bs = updBit refl pn c bs

/-- The slicing step of 4, 8 or 16 bytes is the bitwise update over them, for tables that hold what the chained tables
hold; hence so is upd_slice over any bytes (43_slice_engine.md R165). -/
def Obligations.SliceStepIsBitwise : Prop :=
  ∀ (W : Width) (refl : Bool) (pn c : BitVec W.bits) (t : Nat → Byte → BitVec W.bits) (n : Nat) (b : List Byte),
    n ∈ [4, 8, 16] → (∀ k v, k < n → t k v = updBit refl pn 0 (v :: List.replicate k 0)) →
    (b.length = n → sliceStep refl t n c b = updBit refl pn c b) ∧ updSlice refl t n c b = updBit refl pn c b

/-- At W = 8 the slicing step of 4 bytes is the source's formula, in both bit orders and for any tables
(43_slice_engine.md R166). -/
def Obligations.SliceStepAtWidthEight : Prop :=
  ∀ (refl : Bool) (t : Nat → Byte → BitVec 8) (c b0 b1 b2 b3 : BitVec 8),
    sliceStep refl t 4 c [b0, b1, b2, b3] = t 0 b3 ^^^ t 1 b2 ^^^ t 2 b1 ^^^ t 3 (c ^^^ b0)

/-- The bitwise engine is the oracle: in every coherent state, every well-formed update command over 1 to 16 bytes, when
it completes, writes CRC <- zext_64(upd_bit(CRC[W-1:0], D[0..LEN-1])) and changes nothing else but PENDING
(41_bitwise_engine.md R143). -/
def Obligations.EveryUpdateIsTheOracle : Prop :=
  ∀ (s : State) (i : Instr) (len : BitVec 5), s.Inv → s.pending = some i →
    i ∈ [.updBit len, .updTbl len, .updS4 len, .updS8 len, .updS16 len] → len ≠ 0 →
    exec i s = .next (s.finishedWithCrc (zext64 (updBit s.refl s.pn s.crcW (s.inputBytes len))))

/-- Every engine the instance has agrees with every other on the constructed parameter set, for every running value and
every bytes; so SELFTEST leaves the same RESULT and ST_PASS for every legal ENG (40_parameter_set.md R114). -/
def Obligations.EnginesAgree : Prop :=
  ∀ (s : State) (e e' : Engine), s.Inv → s.valid = true → e.present s.sliceMax = true → e'.present s.sliceMax = true →
    (∀ (c : BitVec s.W) (B : List Byte), engineUpdate e s c B = engineUpdate e' s c B) ∧
    ∃ t t', exec (.selftest e) { s with pending := some (.selftest e) } = .next t ∧
      exec (.selftest e') { s with pending := some (.selftest e') } = .next t' ∧
      t.result = t'.result ∧ t.stPass = t'.stPass

/-- The streaming law across engines: on a constructed parameter set, A by one engine and then B by another gives the
bitwise result of A followed by B (41_bitwise_engine.md R145). -/
def Obligations.StreamingAcrossEngines : Prop :=
  ∀ (s : State) (e e' : Engine) (c : BitVec s.W) (A B : List Byte), s.Inv → s.valid = true →
    e.present s.sliceMax = true → e'.present s.sliceMax = true →
    engineUpdate e' s (engineUpdate e s c A) B = updBit s.refl s.pn c (A ++ B)

/-- The conversions of the polynomial: Normal form always has bit 0 set, and the round trips through Reverse and Koopman
form are exact, for every width (40_parameter_set.md R102, R103). -/
def Obligations.RepresentationsRoundTrip : Prop :=
  ∀ W : Width,
    (∀ (f : PolyFormat) (p : BitVec W.bits), definingBitSet f p = true → (toNormal f p).getLsbD 0 = true) ∧
    (∀ pn : BitVec W.bits, pn.getLsbD 0 = true →
      toNormal .reverse (toReverse pn) = pn ∧ toNormal .koopman (toKoopman pn) = pn ∧
      definingBitSet .reverse (toReverse pn) = true ∧ definingBitSet .koopman (toKoopman pn) = true)

/-- Bits 63:W of POLY, INIT, XOROUT, CHECK and CRC are never used: two states that differ only there, with the same
command pending, complete with the same RESULT, PNORM, PREV, tables and flags and the same CRC[W-1:0]
(10_state.md R25, R27, R28). -/
def Obligations.BitsAboveWidthAreIgnored : Prop :=
  ∀ (s : State) (i : Instr) (p a x k c : Dword), s.pending = some i →
    p.setWidth s.W = s.poly.setWidth s.W → a.setWidth s.W = s.init.setWidth s.W →
    x.setWidth s.W = s.xorout.setWidth s.W → k.setWidth s.W = s.check.setWidth s.W →
    c.setWidth s.W = s.crc.setWidth s.W →
    ∃ t t', exec i s = .next t ∧
      exec i { s with poly := p, init := a, xorout := x, check := k, crc := c } = .next t' ∧
      t.result = t'.result ∧ t.pnorm = t'.pnorm ∧ t.prev = t'.prev ∧ t.tables = t'.tables ∧ t.valid = t'.valid ∧
      t.stDone = t'.stDone ∧ t.stPass = t'.stPass ∧ t.crc.setWidth s.W = t'.crc.setWidth s.W

/-! ## Invariants and whole-machine rules -/

/-- Every step keeps the block coherent (10_state.md R26, R32, R33, R37; 60_exceptions.md R201; Safety.lean, State.Inv). -/
def Obligations.EveryStepKeepsCoherence : Prop := ∀ s t : State, s.Inv → step s = .next t → t.Inv

/-- The block is coherent after reset, on every instance, and its tables have their form. -/
def Obligations.ResetIsCoherent : Prop :=
  ∀ p : Params, (State.resetOf p).Inv ∧ (State.resetOf p).tables.wf p.sliceMax = true

/-- While a command stays pending, what it reads does not change: DIN, CRC, the parameter registers, the tables and the
flags are as they were at its issue (20_memory.md R62; 70_reset_and_hazards.md R243). -/
def Obligations.PendingInputsAreStable : Prop :=
  ∀ (s t : State) (i : Instr), s.pending = some i → step s = .next t → t.pending = some i →
    t.din0 = s.din0 ∧ t.din1 = s.din1 ∧ t.din2 = s.din2 ∧ t.din3 = s.din3 ∧ t.crc = s.crc ∧ t.cfg = s.cfg ∧
    t.poly = s.poly ∧ t.init = s.init ∧ t.xorout = s.xorout ∧ t.check = s.check ∧ t.pnorm = s.pnorm ∧
    t.prev = s.prev ∧ t.result = s.result ∧ t.tables = s.tables ∧ t.valid = s.valid ∧ t.stDone = s.stDone ∧
    t.stPass = s.stPass

/-- Who changes the flags: VALID is set only by a completing CONSTRUCT and cleared only by an accepted write to CFG,
POLY_LO or POLY_HI or by reset; ST_DONE and ST_PASS are set only by a completing SELFTEST; ST_DONE is cleared only as
VALID is, and ST_PASS so or by a completing SELFTEST (10_state.md R33). -/
def Obligations.WhoChangesTheFlags : Prop :=
  ∀ s t : State, step s = .next t →
    let invalidated : Prop := s.resetNext = true ∨
      (s.pending = none ∧ ∃ (off : Nat) (v : Word) (rest : List HostAction),
        off ∈ [0x000, 0x010, 0x014] ∧ s.NextWrite off 4 v rest)
    (s.valid = false → t.valid = true → s.pending = some .construct ∧ t.pending = none) ∧
    (s.valid = true → t.valid = false → invalidated) ∧
    (s.stDone = false → t.stDone = true → ∃ e, s.pending = some (.selftest e) ∧ t.pending = none) ∧
    (s.stDone = true → t.stDone = false → invalidated) ∧
    (s.stPass = false → t.stPass = true → ∃ e, s.pending = some (.selftest e) ∧ t.pending = none) ∧
    (s.stPass = true → t.stPass = false → invalidated ∨ ∃ e, s.pending = some (.selftest e) ∧ t.pending = none)

/-- Who writes the result registers and the tables: CRC changes only by a host write to it, a completing INIT or UPD_*, or
reset; RESULT only by a completing FINAL, SELFTEST or TBL_READ, or reset; PNORM, PREV and built tables only by a
completing CONSTRUCT, an invalidating write (the tables) or reset (10_state.md R28, R30, R32, R37). -/
def Obligations.WhoWritesTheResults : Prop :=
  ∀ s t : State, step s = .next t → s.resetNext = false →
    (t.crc ≠ s.crc →
      (s.pending = none ∧ ∃ (off : Nat) (v : Word) (rest : List HostAction),
        off ∈ [0x030, 0x034] ∧ s.NextWrite off 4 v rest) ∨
      s.pending = some .init ∨ ∃ len : BitVec 5,
        s.pending ∈ [some (.updBit len), some (.updTbl len), some (.updS4 len), some (.updS8 len), some (.updS16 len)]) ∧
    (t.result ≠ s.result → s.pending = some .finalize ∨ (∃ e, s.pending = some (.selftest e)) ∨
      ∃ k v, s.pending = some (.tblRead k v)) ∧
    (t.pnorm ≠ s.pnorm ∨ t.prev ≠ s.prev → s.pending = some .construct) ∧
    (t.tables ≠ s.tables → s.pending = some .construct ∨
      (s.pending = none ∧ t.tables = .unspecified ∧ ∃ (off : Nat) (v : Word) (rest : List HostAction),
        off ∈ [0x000, 0x010, 0x014] ∧ s.NextWrite off 4 v rest))
end

