-- ==== Sys2Proof/Laws/State.lean ====
section
/-! SUPPORT. One lemma for each field of State under each named update of Machine/Ops.lean and Machine/Flags.lean. -/

namespace Sys2Proof.Machine

@[simp] theorem State.raise_params (s : State) (e : ErrorCode) : (s.raise e).params = s.params := rfl
@[simp] theorem State.raise_cfg (s : State) (e : ErrorCode) : (s.raise e).cfg = s.cfg := rfl
@[simp] theorem State.raise_poly (s : State) (e : ErrorCode) : (s.raise e).poly = s.poly := rfl
@[simp] theorem State.raise_init (s : State) (e : ErrorCode) : (s.raise e).init = s.init := rfl
@[simp] theorem State.raise_xorout (s : State) (e : ErrorCode) : (s.raise e).xorout = s.xorout := rfl
@[simp] theorem State.raise_check (s : State) (e : ErrorCode) : (s.raise e).check = s.check := rfl
@[simp] theorem State.raise_crc (s : State) (e : ErrorCode) : (s.raise e).crc = s.crc := rfl
@[simp] theorem State.raise_result (s : State) (e : ErrorCode) : (s.raise e).result = s.result := rfl
@[simp] theorem State.raise_pnorm (s : State) (e : ErrorCode) : (s.raise e).pnorm = s.pnorm := rfl
@[simp] theorem State.raise_prev (s : State) (e : ErrorCode) : (s.raise e).prev = s.prev := rfl
@[simp] theorem State.raise_din0 (s : State) (e : ErrorCode) : (s.raise e).din0 = s.din0 := rfl
@[simp] theorem State.raise_din1 (s : State) (e : ErrorCode) : (s.raise e).din1 = s.din1 := rfl
@[simp] theorem State.raise_din2 (s : State) (e : ErrorCode) : (s.raise e).din2 = s.din2 := rfl
@[simp] theorem State.raise_din3 (s : State) (e : ErrorCode) : (s.raise e).din3 = s.din3 := rfl
@[simp] theorem State.raise_valid (s : State) (e : ErrorCode) : (s.raise e).valid = s.valid := rfl
@[simp] theorem State.raise_stDone (s : State) (e : ErrorCode) : (s.raise e).stDone = s.stDone := rfl
@[simp] theorem State.raise_stPass (s : State) (e : ErrorCode) : (s.raise e).stPass = s.stPass := rfl
@[simp] theorem State.raise_errs (s : State) (e : ErrorCode) : (s.raise e).errs = s.errs ||| e.bit := rfl
@[simp] theorem State.raise_tables (s : State) (e : ErrorCode) : (s.raise e).tables = s.tables := rfl
@[simp] theorem State.raise_pending (s : State) (e : ErrorCode) : (s.raise e).pending = s.pending := rfl
@[simp] theorem State.raise_countdown (s : State) (e : ErrorCode) : (s.raise e).countdown = s.countdown := rfl
@[simp] theorem State.raise_host (s : State) (e : ErrorCode) : (s.raise e).host = s.host := rfl
@[simp] theorem State.raise_draws (s : State) (e : ErrorCode) : (s.raise e).draws = s.draws := rfl
@[simp] theorem State.raise_resp (s : State) (e : ErrorCode) : (s.raise e).resp = s.resp := rfl

@[simp] theorem State.clearErrors_params (s : State) (v : Word) : (s.clearErrors v).params = s.params := rfl
@[simp] theorem State.clearErrors_cfg (s : State) (v : Word) : (s.clearErrors v).cfg = s.cfg := rfl
@[simp] theorem State.clearErrors_poly (s : State) (v : Word) : (s.clearErrors v).poly = s.poly := rfl
@[simp] theorem State.clearErrors_init (s : State) (v : Word) : (s.clearErrors v).init = s.init := rfl
@[simp] theorem State.clearErrors_xorout (s : State) (v : Word) : (s.clearErrors v).xorout = s.xorout := rfl
@[simp] theorem State.clearErrors_check (s : State) (v : Word) : (s.clearErrors v).check = s.check := rfl
@[simp] theorem State.clearErrors_crc (s : State) (v : Word) : (s.clearErrors v).crc = s.crc := rfl
@[simp] theorem State.clearErrors_result (s : State) (v : Word) : (s.clearErrors v).result = s.result := rfl
@[simp] theorem State.clearErrors_pnorm (s : State) (v : Word) : (s.clearErrors v).pnorm = s.pnorm := rfl
@[simp] theorem State.clearErrors_prev (s : State) (v : Word) : (s.clearErrors v).prev = s.prev := rfl
@[simp] theorem State.clearErrors_din0 (s : State) (v : Word) : (s.clearErrors v).din0 = s.din0 := rfl
@[simp] theorem State.clearErrors_din1 (s : State) (v : Word) : (s.clearErrors v).din1 = s.din1 := rfl
@[simp] theorem State.clearErrors_din2 (s : State) (v : Word) : (s.clearErrors v).din2 = s.din2 := rfl
@[simp] theorem State.clearErrors_din3 (s : State) (v : Word) : (s.clearErrors v).din3 = s.din3 := rfl
@[simp] theorem State.clearErrors_valid (s : State) (v : Word) : (s.clearErrors v).valid = s.valid := rfl
@[simp] theorem State.clearErrors_stDone (s : State) (v : Word) : (s.clearErrors v).stDone = s.stDone := rfl
@[simp] theorem State.clearErrors_stPass (s : State) (v : Word) : (s.clearErrors v).stPass = s.stPass := rfl
@[simp] theorem State.clearErrors_errs (s : State) (v : Word) : (s.clearErrors v).errs = clearedErrors s.errs v := rfl
@[simp] theorem State.clearErrors_tables (s : State) (v : Word) : (s.clearErrors v).tables = s.tables := rfl
@[simp] theorem State.clearErrors_pending (s : State) (v : Word) : (s.clearErrors v).pending = s.pending := rfl
@[simp] theorem State.clearErrors_countdown (s : State) (v : Word) : (s.clearErrors v).countdown = s.countdown := rfl
@[simp] theorem State.clearErrors_host (s : State) (v : Word) : (s.clearErrors v).host = s.host := rfl
@[simp] theorem State.clearErrors_draws (s : State) (v : Word) : (s.clearErrors v).draws = s.draws := rfl
@[simp] theorem State.clearErrors_resp (s : State) (v : Word) : (s.clearErrors v).resp = s.resp := rfl

@[simp] theorem State.invalidate_params (s : State) : (s.invalidate).params = s.params := rfl
@[simp] theorem State.invalidate_cfg (s : State) : (s.invalidate).cfg = s.cfg := rfl
@[simp] theorem State.invalidate_poly (s : State) : (s.invalidate).poly = s.poly := rfl
@[simp] theorem State.invalidate_init (s : State) : (s.invalidate).init = s.init := rfl
@[simp] theorem State.invalidate_xorout (s : State) : (s.invalidate).xorout = s.xorout := rfl
@[simp] theorem State.invalidate_check (s : State) : (s.invalidate).check = s.check := rfl
@[simp] theorem State.invalidate_crc (s : State) : (s.invalidate).crc = s.crc := rfl
@[simp] theorem State.invalidate_result (s : State) : (s.invalidate).result = s.result := rfl
@[simp] theorem State.invalidate_pnorm (s : State) : (s.invalidate).pnorm = s.pnorm := rfl
@[simp] theorem State.invalidate_prev (s : State) : (s.invalidate).prev = s.prev := rfl
@[simp] theorem State.invalidate_din0 (s : State) : (s.invalidate).din0 = s.din0 := rfl
@[simp] theorem State.invalidate_din1 (s : State) : (s.invalidate).din1 = s.din1 := rfl
@[simp] theorem State.invalidate_din2 (s : State) : (s.invalidate).din2 = s.din2 := rfl
@[simp] theorem State.invalidate_din3 (s : State) : (s.invalidate).din3 = s.din3 := rfl
@[simp] theorem State.invalidate_valid (s : State) : (s.invalidate).valid = false := rfl
@[simp] theorem State.invalidate_stDone (s : State) : (s.invalidate).stDone = false := rfl
@[simp] theorem State.invalidate_stPass (s : State) : (s.invalidate).stPass = false := rfl
@[simp] theorem State.invalidate_errs (s : State) : (s.invalidate).errs = s.errs := rfl
@[simp] theorem State.invalidate_tables (s : State) : (s.invalidate).tables = .unspecified := rfl
@[simp] theorem State.invalidate_pending (s : State) : (s.invalidate).pending = s.pending := rfl
@[simp] theorem State.invalidate_countdown (s : State) : (s.invalidate).countdown = s.countdown := rfl
@[simp] theorem State.invalidate_host (s : State) : (s.invalidate).host = s.host := rfl
@[simp] theorem State.invalidate_draws (s : State) : (s.invalidate).draws = s.draws := rfl
@[simp] theorem State.invalidate_resp (s : State) : (s.invalidate).resp = s.resp := rfl

@[simp] theorem State.accept_params (s : State) (i : Instr) : (s.accept i).params = s.params := rfl
@[simp] theorem State.accept_cfg (s : State) (i : Instr) : (s.accept i).cfg = s.cfg := rfl
@[simp] theorem State.accept_poly (s : State) (i : Instr) : (s.accept i).poly = s.poly := rfl
@[simp] theorem State.accept_init (s : State) (i : Instr) : (s.accept i).init = s.init := rfl
@[simp] theorem State.accept_xorout (s : State) (i : Instr) : (s.accept i).xorout = s.xorout := rfl
@[simp] theorem State.accept_check (s : State) (i : Instr) : (s.accept i).check = s.check := rfl
@[simp] theorem State.accept_crc (s : State) (i : Instr) : (s.accept i).crc = s.crc := rfl
@[simp] theorem State.accept_result (s : State) (i : Instr) : (s.accept i).result = s.result := rfl
@[simp] theorem State.accept_pnorm (s : State) (i : Instr) : (s.accept i).pnorm = s.pnorm := rfl
@[simp] theorem State.accept_prev (s : State) (i : Instr) : (s.accept i).prev = s.prev := rfl
@[simp] theorem State.accept_din0 (s : State) (i : Instr) : (s.accept i).din0 = s.din0 := rfl
@[simp] theorem State.accept_din1 (s : State) (i : Instr) : (s.accept i).din1 = s.din1 := rfl
@[simp] theorem State.accept_din2 (s : State) (i : Instr) : (s.accept i).din2 = s.din2 := rfl
@[simp] theorem State.accept_din3 (s : State) (i : Instr) : (s.accept i).din3 = s.din3 := rfl
@[simp] theorem State.accept_valid (s : State) (i : Instr) : (s.accept i).valid = s.valid := rfl
@[simp] theorem State.accept_stDone (s : State) (i : Instr) : (s.accept i).stDone = s.stDone := rfl
@[simp] theorem State.accept_stPass (s : State) (i : Instr) : (s.accept i).stPass = s.stPass := rfl
@[simp] theorem State.accept_errs (s : State) (i : Instr) : (s.accept i).errs = s.errs := rfl
@[simp] theorem State.accept_tables (s : State) (i : Instr) : (s.accept i).tables = s.tables := rfl
@[simp] theorem State.accept_pending (s : State) (i : Instr) : (s.accept i).pending = some i := rfl
@[simp] theorem State.accept_countdown (s : State) (i : Instr) : (s.accept i).countdown = Config.extraCycles i := rfl
@[simp] theorem State.accept_host (s : State) (i : Instr) : (s.accept i).host = s.host := rfl
@[simp] theorem State.accept_draws (s : State) (i : Instr) : (s.accept i).draws = s.draws := rfl
@[simp] theorem State.accept_resp (s : State) (i : Instr) : (s.accept i).resp = s.resp := rfl

@[simp] theorem State.retire_params (s : State) : (s.retire).params = s.params := rfl
@[simp] theorem State.retire_cfg (s : State) : (s.retire).cfg = s.cfg := rfl
@[simp] theorem State.retire_poly (s : State) : (s.retire).poly = s.poly := rfl
@[simp] theorem State.retire_init (s : State) : (s.retire).init = s.init := rfl
@[simp] theorem State.retire_xorout (s : State) : (s.retire).xorout = s.xorout := rfl
@[simp] theorem State.retire_check (s : State) : (s.retire).check = s.check := rfl
@[simp] theorem State.retire_crc (s : State) : (s.retire).crc = s.crc := rfl
@[simp] theorem State.retire_result (s : State) : (s.retire).result = s.result := rfl
@[simp] theorem State.retire_pnorm (s : State) : (s.retire).pnorm = s.pnorm := rfl
@[simp] theorem State.retire_prev (s : State) : (s.retire).prev = s.prev := rfl
@[simp] theorem State.retire_din0 (s : State) : (s.retire).din0 = s.din0 := rfl
@[simp] theorem State.retire_din1 (s : State) : (s.retire).din1 = s.din1 := rfl
@[simp] theorem State.retire_din2 (s : State) : (s.retire).din2 = s.din2 := rfl
@[simp] theorem State.retire_din3 (s : State) : (s.retire).din3 = s.din3 := rfl
@[simp] theorem State.retire_valid (s : State) : (s.retire).valid = s.valid := rfl
@[simp] theorem State.retire_stDone (s : State) : (s.retire).stDone = s.stDone := rfl
@[simp] theorem State.retire_stPass (s : State) : (s.retire).stPass = s.stPass := rfl
@[simp] theorem State.retire_errs (s : State) : (s.retire).errs = s.errs := rfl
@[simp] theorem State.retire_tables (s : State) : (s.retire).tables = s.tables := rfl
@[simp] theorem State.retire_pending (s : State) : (s.retire).pending = none := rfl
@[simp] theorem State.retire_countdown (s : State) : (s.retire).countdown = 0 := rfl
@[simp] theorem State.retire_host (s : State) : (s.retire).host = s.host := rfl
@[simp] theorem State.retire_draws (s : State) : (s.retire).draws = s.draws := rfl
@[simp] theorem State.retire_resp (s : State) : (s.retire).resp = s.resp := rfl

@[simp] theorem State.setCrc_params {w : Nat} (s : State) (r : BitVec w) : (s.setCrc r).params = s.params := rfl
@[simp] theorem State.setCrc_cfg {w : Nat} (s : State) (r : BitVec w) : (s.setCrc r).cfg = s.cfg := rfl
@[simp] theorem State.setCrc_poly {w : Nat} (s : State) (r : BitVec w) : (s.setCrc r).poly = s.poly := rfl
@[simp] theorem State.setCrc_init {w : Nat} (s : State) (r : BitVec w) : (s.setCrc r).init = s.init := rfl
@[simp] theorem State.setCrc_xorout {w : Nat} (s : State) (r : BitVec w) : (s.setCrc r).xorout = s.xorout := rfl
@[simp] theorem State.setCrc_check {w : Nat} (s : State) (r : BitVec w) : (s.setCrc r).check = s.check := rfl
@[simp] theorem State.setCrc_crc {w : Nat} (s : State) (r : BitVec w) : (s.setCrc r).crc = zext64 r := rfl
@[simp] theorem State.setCrc_result {w : Nat} (s : State) (r : BitVec w) : (s.setCrc r).result = s.result := rfl
@[simp] theorem State.setCrc_pnorm {w : Nat} (s : State) (r : BitVec w) : (s.setCrc r).pnorm = s.pnorm := rfl
@[simp] theorem State.setCrc_prev {w : Nat} (s : State) (r : BitVec w) : (s.setCrc r).prev = s.prev := rfl
@[simp] theorem State.setCrc_din0 {w : Nat} (s : State) (r : BitVec w) : (s.setCrc r).din0 = s.din0 := rfl
@[simp] theorem State.setCrc_din1 {w : Nat} (s : State) (r : BitVec w) : (s.setCrc r).din1 = s.din1 := rfl
@[simp] theorem State.setCrc_din2 {w : Nat} (s : State) (r : BitVec w) : (s.setCrc r).din2 = s.din2 := rfl
@[simp] theorem State.setCrc_din3 {w : Nat} (s : State) (r : BitVec w) : (s.setCrc r).din3 = s.din3 := rfl
@[simp] theorem State.setCrc_valid {w : Nat} (s : State) (r : BitVec w) : (s.setCrc r).valid = s.valid := rfl
@[simp] theorem State.setCrc_stDone {w : Nat} (s : State) (r : BitVec w) : (s.setCrc r).stDone = s.stDone := rfl
@[simp] theorem State.setCrc_stPass {w : Nat} (s : State) (r : BitVec w) : (s.setCrc r).stPass = s.stPass := rfl
@[simp] theorem State.setCrc_errs {w : Nat} (s : State) (r : BitVec w) : (s.setCrc r).errs = s.errs := rfl
@[simp] theorem State.setCrc_tables {w : Nat} (s : State) (r : BitVec w) : (s.setCrc r).tables = s.tables := rfl
@[simp] theorem State.setCrc_pending {w : Nat} (s : State) (r : BitVec w) : (s.setCrc r).pending = s.pending := rfl
@[simp] theorem State.setCrc_countdown {w : Nat} (s : State) (r : BitVec w) : (s.setCrc r).countdown = s.countdown := rfl
@[simp] theorem State.setCrc_host {w : Nat} (s : State) (r : BitVec w) : (s.setCrc r).host = s.host := rfl
@[simp] theorem State.setCrc_draws {w : Nat} (s : State) (r : BitVec w) : (s.setCrc r).draws = s.draws := rfl
@[simp] theorem State.setCrc_resp {w : Nat} (s : State) (r : BitVec w) : (s.setCrc r).resp = s.resp := rfl

@[simp] theorem State.setResult_params {w : Nat} (s : State) (r : BitVec w) : (s.setResult r).params = s.params := rfl
@[simp] theorem State.setResult_cfg {w : Nat} (s : State) (r : BitVec w) : (s.setResult r).cfg = s.cfg := rfl
@[simp] theorem State.setResult_poly {w : Nat} (s : State) (r : BitVec w) : (s.setResult r).poly = s.poly := rfl
@[simp] theorem State.setResult_init {w : Nat} (s : State) (r : BitVec w) : (s.setResult r).init = s.init := rfl
@[simp] theorem State.setResult_xorout {w : Nat} (s : State) (r : BitVec w) : (s.setResult r).xorout = s.xorout := rfl
@[simp] theorem State.setResult_check {w : Nat} (s : State) (r : BitVec w) : (s.setResult r).check = s.check := rfl
@[simp] theorem State.setResult_crc {w : Nat} (s : State) (r : BitVec w) : (s.setResult r).crc = s.crc := rfl
@[simp] theorem State.setResult_result {w : Nat} (s : State) (r : BitVec w) : (s.setResult r).result = zext64 r := rfl
@[simp] theorem State.setResult_pnorm {w : Nat} (s : State) (r : BitVec w) : (s.setResult r).pnorm = s.pnorm := rfl
@[simp] theorem State.setResult_prev {w : Nat} (s : State) (r : BitVec w) : (s.setResult r).prev = s.prev := rfl
@[simp] theorem State.setResult_din0 {w : Nat} (s : State) (r : BitVec w) : (s.setResult r).din0 = s.din0 := rfl
@[simp] theorem State.setResult_din1 {w : Nat} (s : State) (r : BitVec w) : (s.setResult r).din1 = s.din1 := rfl
@[simp] theorem State.setResult_din2 {w : Nat} (s : State) (r : BitVec w) : (s.setResult r).din2 = s.din2 := rfl
@[simp] theorem State.setResult_din3 {w : Nat} (s : State) (r : BitVec w) : (s.setResult r).din3 = s.din3 := rfl
@[simp] theorem State.setResult_valid {w : Nat} (s : State) (r : BitVec w) : (s.setResult r).valid = s.valid := rfl
@[simp] theorem State.setResult_stDone {w : Nat} (s : State) (r : BitVec w) : (s.setResult r).stDone = s.stDone := rfl
@[simp] theorem State.setResult_stPass {w : Nat} (s : State) (r : BitVec w) : (s.setResult r).stPass = s.stPass := rfl
@[simp] theorem State.setResult_errs {w : Nat} (s : State) (r : BitVec w) : (s.setResult r).errs = s.errs := rfl
@[simp] theorem State.setResult_tables {w : Nat} (s : State) (r : BitVec w) : (s.setResult r).tables = s.tables := rfl
@[simp] theorem State.setResult_pending {w : Nat} (s : State) (r : BitVec w) : (s.setResult r).pending = s.pending := rfl
@[simp] theorem State.setResult_countdown {w : Nat} (s : State) (r : BitVec w) : (s.setResult r).countdown = s.countdown := rfl
@[simp] theorem State.setResult_host {w : Nat} (s : State) (r : BitVec w) : (s.setResult r).host = s.host := rfl
@[simp] theorem State.setResult_draws {w : Nat} (s : State) (r : BitVec w) : (s.setResult r).draws = s.draws := rfl
@[simp] theorem State.setResult_resp {w : Nat} (s : State) (r : BitVec w) : (s.setResult r).resp = s.resp := rfl

@[simp] theorem State.respond_params (s : State) (d : Option Word) (b : Bool) : (s.respond d b).params = s.params := rfl
@[simp] theorem State.respond_cfg (s : State) (d : Option Word) (b : Bool) : (s.respond d b).cfg = s.cfg := rfl
@[simp] theorem State.respond_poly (s : State) (d : Option Word) (b : Bool) : (s.respond d b).poly = s.poly := rfl
@[simp] theorem State.respond_init (s : State) (d : Option Word) (b : Bool) : (s.respond d b).init = s.init := rfl
@[simp] theorem State.respond_xorout (s : State) (d : Option Word) (b : Bool) : (s.respond d b).xorout = s.xorout := rfl
@[simp] theorem State.respond_check (s : State) (d : Option Word) (b : Bool) : (s.respond d b).check = s.check := rfl
@[simp] theorem State.respond_crc (s : State) (d : Option Word) (b : Bool) : (s.respond d b).crc = s.crc := rfl
@[simp] theorem State.respond_result (s : State) (d : Option Word) (b : Bool) : (s.respond d b).result = s.result := rfl
@[simp] theorem State.respond_pnorm (s : State) (d : Option Word) (b : Bool) : (s.respond d b).pnorm = s.pnorm := rfl
@[simp] theorem State.respond_prev (s : State) (d : Option Word) (b : Bool) : (s.respond d b).prev = s.prev := rfl
@[simp] theorem State.respond_din0 (s : State) (d : Option Word) (b : Bool) : (s.respond d b).din0 = s.din0 := rfl
@[simp] theorem State.respond_din1 (s : State) (d : Option Word) (b : Bool) : (s.respond d b).din1 = s.din1 := rfl
@[simp] theorem State.respond_din2 (s : State) (d : Option Word) (b : Bool) : (s.respond d b).din2 = s.din2 := rfl
@[simp] theorem State.respond_din3 (s : State) (d : Option Word) (b : Bool) : (s.respond d b).din3 = s.din3 := rfl
@[simp] theorem State.respond_valid (s : State) (d : Option Word) (b : Bool) : (s.respond d b).valid = s.valid := rfl
@[simp] theorem State.respond_stDone (s : State) (d : Option Word) (b : Bool) : (s.respond d b).stDone = s.stDone := rfl
@[simp] theorem State.respond_stPass (s : State) (d : Option Word) (b : Bool) : (s.respond d b).stPass = s.stPass := rfl
@[simp] theorem State.respond_errs (s : State) (d : Option Word) (b : Bool) : (s.respond d b).errs = s.errs := rfl
@[simp] theorem State.respond_tables (s : State) (d : Option Word) (b : Bool) : (s.respond d b).tables = s.tables := rfl
@[simp] theorem State.respond_pending (s : State) (d : Option Word) (b : Bool) : (s.respond d b).pending = s.pending := rfl
@[simp] theorem State.respond_countdown (s : State) (d : Option Word) (b : Bool) : (s.respond d b).countdown = s.countdown := rfl
@[simp] theorem State.respond_host (s : State) (d : Option Word) (b : Bool) : (s.respond d b).host = s.host := rfl
@[simp] theorem State.respond_draws (s : State) (d : Option Word) (b : Bool) : (s.respond d b).draws = s.draws := rfl
@[simp] theorem State.respond_resp (s : State) (d : Option Word) (b : Bool) : (s.respond d b).resp = ⟨d, b⟩ := rfl

@[simp] theorem State.resetBlock_params (s : State) : (s.resetBlock).params = s.params := rfl
@[simp] theorem State.resetBlock_cfg (s : State) : (s.resetBlock).cfg = 0 := rfl
@[simp] theorem State.resetBlock_poly (s : State) : (s.resetBlock).poly = 0 := rfl
@[simp] theorem State.resetBlock_init (s : State) : (s.resetBlock).init = 0 := rfl
@[simp] theorem State.resetBlock_xorout (s : State) : (s.resetBlock).xorout = 0 := rfl
@[simp] theorem State.resetBlock_check (s : State) : (s.resetBlock).check = 0 := rfl
@[simp] theorem State.resetBlock_crc (s : State) : (s.resetBlock).crc = 0 := rfl
@[simp] theorem State.resetBlock_result (s : State) : (s.resetBlock).result = 0 := rfl
@[simp] theorem State.resetBlock_pnorm (s : State) : (s.resetBlock).pnorm = 0 := rfl
@[simp] theorem State.resetBlock_prev (s : State) : (s.resetBlock).prev = 0 := rfl
@[simp] theorem State.resetBlock_din0 (s : State) : (s.resetBlock).din0 = 0 := rfl
@[simp] theorem State.resetBlock_din1 (s : State) : (s.resetBlock).din1 = 0 := rfl
@[simp] theorem State.resetBlock_din2 (s : State) : (s.resetBlock).din2 = 0 := rfl
@[simp] theorem State.resetBlock_din3 (s : State) : (s.resetBlock).din3 = 0 := rfl
@[simp] theorem State.resetBlock_valid (s : State) : (s.resetBlock).valid = false := rfl
@[simp] theorem State.resetBlock_stDone (s : State) : (s.resetBlock).stDone = false := rfl
@[simp] theorem State.resetBlock_stPass (s : State) : (s.resetBlock).stPass = false := rfl
@[simp] theorem State.resetBlock_errs (s : State) : (s.resetBlock).errs = 0 := rfl
@[simp] theorem State.resetBlock_tables (s : State) : (s.resetBlock).tables = .unspecified := rfl
@[simp] theorem State.resetBlock_pending (s : State) : (s.resetBlock).pending = none := rfl
@[simp] theorem State.resetBlock_countdown (s : State) : (s.resetBlock).countdown = 0 := rfl
@[simp] theorem State.resetBlock_host (s : State) : (s.resetBlock).host = s.host := rfl
@[simp] theorem State.resetBlock_draws (s : State) : (s.resetBlock).draws = s.draws := rfl
@[simp] theorem State.resetBlock_resp (s : State) : (s.resetBlock).resp = s.resp := rfl

end Sys2Proof.Machine
end

