-- ==== Sys2Proof/Laws/Ops.lean ====
section
/-! SUPPORT. What the shared operations can do, said once: the issue of a command, its two moments, and the effect each
command has at its completion. -/

namespace Sys2Proof.Machine

/-- The effect of a command at its completion. -/
def effectOf : Instr → State → State
  | .nop => id
  | .construct => constructEffect
  | .init => fun s => s.setCrc s.initW
  | .updBit len => fun s => updateEffect len s (updBit s.refl s.pn)
  | .updTbl len => fun s => updateEffect len s (updTbl s.refl (s.table 0))
  | .updS4 len => fun s => updateEffect len s (updSlice s.refl s.table 4)
  | .updS8 len => fun s => updateEffect len s (updSlice s.refl s.table 8)
  | .updS16 len => fun s => updateEffect len s (updSlice s.refl s.table 16)
  | .finalize => fun s => s.setResult (s.crcW ^^^ s.xoroutW)
  | .selftest eng => selftestEffect eng
  | .tblRead k v => fun s => s.setResult (s.table k.toNat v)
  | .reservedB _ => id
  | .reservedC _ => id
  | .reservedD _ => id
  | .reservedE _ => id
  | .reservedF _ => id

/-- Every arm of exec is the two moments of its command. -/
theorem exec_eq_runCommand (i : Instr) (s : State) : exec i s = runCommand i (effectOf i) s := by
  cases i <;> rfl

/-- The pending command completes. -/
theorem exec_completes {i : Instr} {s : State} (h : s.pending = some i) : exec i s = .next (effectOf i s).retire := by
  rw [exec_eq_runCommand, runCommand, if_pos h]

/-- A command that is not pending is issued. -/
theorem exec_issues {i : Instr} {s : State} (h : s.pending ≠ some i) : exec i s = .next (issue i s) := by
  rw [exec_eq_runCommand, runCommand, if_neg h]

/-- exec always answers a next state. -/
theorem exec_next (i : Instr) (s : State) : ∃ t, exec i s = .next t := by
  by_cases h : s.pending = some i
  · exact ⟨_, exec_completes h⟩
  · exact ⟨_, exec_issues h⟩

theorem busy_eq_false {s : State} : s.busy = false ↔ s.pending = none := by
  cases h : s.pending <;> simp [State.busy, h]

theorem busy_eq_true {s : State} : s.busy = true ↔ s.pending ≠ none := by
  cases h : s.pending <;> simp [State.busy, h]

theorem issue_busy {i : Instr} {s : State} (h : s.pending ≠ none) : issue i s = s.raise .busy := by
  rw [issue, if_pos (busy_eq_true.2 h)]

theorem issue_refused {i : Instr} {s : State} {e : ErrorCode} (h : s.pending = none) (he : commandError i s = some e) :
    issue i s = s.raise e := by
  simp [issue, busy_eq_false.2 h, he]

theorem issue_accepted {i : Instr} {s : State} (h : s.pending = none) (he : commandError i s = none) :
    issue i s = s.accept i := by
  simp [issue, busy_eq_false.2 h, he]

/-- All an issue can do: set one error bit, or accept the command. -/
theorem issue_cases (i : Instr) (s : State) :
    (∃ e, issue i s = s.raise e) ∨ (s.pending = none ∧ commandError i s = none ∧ issue i s = s.accept i) := by
  by_cases h : s.pending = none
  · cases he : commandError i s with
    | some e => exact .inl ⟨e, issue_refused h he⟩
    | none => exact .inr ⟨h, rfl, issue_accepted h he⟩
  · exact .inl ⟨_, issue_busy h⟩

/-- What no completion touches: the parameter registers, the input window, the error bits and the model's own fields. -/
theorem effectOf_frame (i : Instr) (s : State) :
    (effectOf i s).params = s.params ∧ (effectOf i s).cfg = s.cfg ∧ (effectOf i s).poly = s.poly ∧
    (effectOf i s).init = s.init ∧ (effectOf i s).xorout = s.xorout ∧ (effectOf i s).check = s.check ∧
    (effectOf i s).din0 = s.din0 ∧ (effectOf i s).din1 = s.din1 ∧ (effectOf i s).din2 = s.din2 ∧
    (effectOf i s).din3 = s.din3 ∧ (effectOf i s).errs = s.errs ∧ (effectOf i s).pending = s.pending ∧
    (effectOf i s).countdown = s.countdown ∧ (effectOf i s).host = s.host ∧ (effectOf i s).draws = s.draws ∧
    (effectOf i s).resp = s.resp := by
  cases i <;> simp only [effectOf, updateEffect, constructEffect, selftestEffect] <;>
    first | (split <;> simp [constructFrom]) | simp

/-- The width depends on CFG alone. -/
theorem State.width_congr {s t : State} (h : t.cfg = s.cfg) : t.width = s.width := by
  simp [State.width, h]

/-- Every command needs VALID but NOP and CONSTRUCT (and the reserved OPs, which are refused before). -/
theorem needsValid_eq_false {i : Instr} (h : needsValid i = false) :
    i = .nop ∨ i = .construct ∨ i.isReserved = true := by
  cases i <;> simp_all [needsValid, Instr.isReserved]

end Sys2Proof.Machine
end

