-- ==== Sys2Proof/Laws/Bus.lean ====
section
/-! SUPPORT. What the bus operations and one step can do, said once. -/

namespace Sys2Proof.Machine

/-! ## The named updates of Safety.lean, field by field -/

@[simp] theorem State.answered_params (s : State) (rest : List HostAction) (d : Option Word) (b : Bool) :
    (s.answered rest d b).params = s.params := rfl
@[simp] theorem State.answered_cfg (s : State) (rest : List HostAction) (d : Option Word) (b : Bool) :
    (s.answered rest d b).cfg = s.cfg := rfl
@[simp] theorem State.answered_poly (s : State) (rest : List HostAction) (d : Option Word) (b : Bool) :
    (s.answered rest d b).poly = s.poly := rfl
@[simp] theorem State.answered_init (s : State) (rest : List HostAction) (d : Option Word) (b : Bool) :
    (s.answered rest d b).init = s.init := rfl
@[simp] theorem State.answered_xorout (s : State) (rest : List HostAction) (d : Option Word) (b : Bool) :
    (s.answered rest d b).xorout = s.xorout := rfl
@[simp] theorem State.answered_check (s : State) (rest : List HostAction) (d : Option Word) (b : Bool) :
    (s.answered rest d b).check = s.check := rfl
@[simp] theorem State.answered_crc (s : State) (rest : List HostAction) (d : Option Word) (b : Bool) :
    (s.answered rest d b).crc = s.crc := rfl
@[simp] theorem State.answered_result (s : State) (rest : List HostAction) (d : Option Word) (b : Bool) :
    (s.answered rest d b).result = s.result := rfl
@[simp] theorem State.answered_pnorm (s : State) (rest : List HostAction) (d : Option Word) (b : Bool) :
    (s.answered rest d b).pnorm = s.pnorm := rfl
@[simp] theorem State.answered_prev (s : State) (rest : List HostAction) (d : Option Word) (b : Bool) :
    (s.answered rest d b).prev = s.prev := rfl
@[simp] theorem State.answered_din0 (s : State) (rest : List HostAction) (d : Option Word) (b : Bool) :
    (s.answered rest d b).din0 = s.din0 := rfl
@[simp] theorem State.answered_din1 (s : State) (rest : List HostAction) (d : Option Word) (b : Bool) :
    (s.answered rest d b).din1 = s.din1 := rfl
@[simp] theorem State.answered_din2 (s : State) (rest : List HostAction) (d : Option Word) (b : Bool) :
    (s.answered rest d b).din2 = s.din2 := rfl
@[simp] theorem State.answered_din3 (s : State) (rest : List HostAction) (d : Option Word) (b : Bool) :
    (s.answered rest d b).din3 = s.din3 := rfl
@[simp] theorem State.answered_valid (s : State) (rest : List HostAction) (d : Option Word) (b : Bool) :
    (s.answered rest d b).valid = s.valid := rfl
@[simp] theorem State.answered_stDone (s : State) (rest : List HostAction) (d : Option Word) (b : Bool) :
    (s.answered rest d b).stDone = s.stDone := rfl
@[simp] theorem State.answered_stPass (s : State) (rest : List HostAction) (d : Option Word) (b : Bool) :
    (s.answered rest d b).stPass = s.stPass := rfl
@[simp] theorem State.answered_errs (s : State) (rest : List HostAction) (d : Option Word) (b : Bool) :
    (s.answered rest d b).errs = s.errs := rfl
@[simp] theorem State.answered_tables (s : State) (rest : List HostAction) (d : Option Word) (b : Bool) :
    (s.answered rest d b).tables = s.tables := rfl
@[simp] theorem State.answered_pending (s : State) (rest : List HostAction) (d : Option Word) (b : Bool) :
    (s.answered rest d b).pending = s.pending := rfl
@[simp] theorem State.answered_countdown (s : State) (rest : List HostAction) (d : Option Word) (b : Bool) :
    (s.answered rest d b).countdown = s.countdown := rfl
@[simp] theorem State.answered_host (s : State) (rest : List HostAction) (d : Option Word) (b : Bool) :
    (s.answered rest d b).host = rest := rfl
@[simp] theorem State.answered_draws (s : State) (rest : List HostAction) (d : Option Word) (b : Bool) :
    (s.answered rest d b).draws = s.draws := rfl
@[simp] theorem State.answered_resp (s : State) (rest : List HostAction) (d : Option Word) (b : Bool) :
    (s.answered rest d b).resp = ⟨d, b⟩ := rfl
@[simp] theorem State.elapsed_params (s : State) : (s.elapsed).params = s.params := rfl
@[simp] theorem State.elapsed_cfg (s : State) : (s.elapsed).cfg = s.cfg := rfl
@[simp] theorem State.elapsed_poly (s : State) : (s.elapsed).poly = s.poly := rfl
@[simp] theorem State.elapsed_init (s : State) : (s.elapsed).init = s.init := rfl
@[simp] theorem State.elapsed_xorout (s : State) : (s.elapsed).xorout = s.xorout := rfl
@[simp] theorem State.elapsed_check (s : State) : (s.elapsed).check = s.check := rfl
@[simp] theorem State.elapsed_crc (s : State) : (s.elapsed).crc = s.crc := rfl
@[simp] theorem State.elapsed_result (s : State) : (s.elapsed).result = s.result := rfl
@[simp] theorem State.elapsed_pnorm (s : State) : (s.elapsed).pnorm = s.pnorm := rfl
@[simp] theorem State.elapsed_prev (s : State) : (s.elapsed).prev = s.prev := rfl
@[simp] theorem State.elapsed_din0 (s : State) : (s.elapsed).din0 = s.din0 := rfl
@[simp] theorem State.elapsed_din1 (s : State) : (s.elapsed).din1 = s.din1 := rfl
@[simp] theorem State.elapsed_din2 (s : State) : (s.elapsed).din2 = s.din2 := rfl
@[simp] theorem State.elapsed_din3 (s : State) : (s.elapsed).din3 = s.din3 := rfl
@[simp] theorem State.elapsed_valid (s : State) : (s.elapsed).valid = s.valid := rfl
@[simp] theorem State.elapsed_stDone (s : State) : (s.elapsed).stDone = s.stDone := rfl
@[simp] theorem State.elapsed_stPass (s : State) : (s.elapsed).stPass = s.stPass := rfl
@[simp] theorem State.elapsed_errs (s : State) : (s.elapsed).errs = s.errs := rfl
@[simp] theorem State.elapsed_tables (s : State) : (s.elapsed).tables = s.tables := rfl
@[simp] theorem State.elapsed_pending (s : State) : (s.elapsed).pending = s.pending := rfl
@[simp] theorem State.elapsed_countdown (s : State) : (s.elapsed).countdown = s.countdown - 1 := rfl
@[simp] theorem State.elapsed_host (s : State) : (s.elapsed).host = s.host := rfl
@[simp] theorem State.elapsed_draws (s : State) : (s.elapsed).draws = s.draws := rfl
@[simp] theorem State.elapsed_resp (s : State) : (s.elapsed).resp = s.resp := rfl
@[simp] theorem State.finishedWithCrc_params (s : State) (c : Dword) :
    (s.finishedWithCrc c).params = s.params := rfl
@[simp] theorem State.finishedWithCrc_cfg (s : State) (c : Dword) :
    (s.finishedWithCrc c).cfg = s.cfg := rfl
@[simp] theorem State.finishedWithCrc_poly (s : State) (c : Dword) :
    (s.finishedWithCrc c).poly = s.poly := rfl
@[simp] theorem State.finishedWithCrc_init (s : State) (c : Dword) :
    (s.finishedWithCrc c).init = s.init := rfl
@[simp] theorem State.finishedWithCrc_xorout (s : State) (c : Dword) :
    (s.finishedWithCrc c).xorout = s.xorout := rfl
@[simp] theorem State.finishedWithCrc_check (s : State) (c : Dword) :
    (s.finishedWithCrc c).check = s.check := rfl
@[simp] theorem State.finishedWithCrc_crc (s : State) (c : Dword) :
    (s.finishedWithCrc c).crc = c := rfl
@[simp] theorem State.finishedWithCrc_result (s : State) (c : Dword) :
    (s.finishedWithCrc c).result = s.result := rfl
@[simp] theorem State.finishedWithCrc_pnorm (s : State) (c : Dword) :
    (s.finishedWithCrc c).pnorm = s.pnorm := rfl
@[simp] theorem State.finishedWithCrc_prev (s : State) (c : Dword) :
    (s.finishedWithCrc c).prev = s.prev := rfl
@[simp] theorem State.finishedWithCrc_din0 (s : State) (c : Dword) :
    (s.finishedWithCrc c).din0 = s.din0 := rfl
@[simp] theorem State.finishedWithCrc_din1 (s : State) (c : Dword) :
    (s.finishedWithCrc c).din1 = s.din1 := rfl
@[simp] theorem State.finishedWithCrc_din2 (s : State) (c : Dword) :
    (s.finishedWithCrc c).din2 = s.din2 := rfl
@[simp] theorem State.finishedWithCrc_din3 (s : State) (c : Dword) :
    (s.finishedWithCrc c).din3 = s.din3 := rfl
@[simp] theorem State.finishedWithCrc_valid (s : State) (c : Dword) :
    (s.finishedWithCrc c).valid = s.valid := rfl
@[simp] theorem State.finishedWithCrc_stDone (s : State) (c : Dword) :
    (s.finishedWithCrc c).stDone = s.stDone := rfl
@[simp] theorem State.finishedWithCrc_stPass (s : State) (c : Dword) :
    (s.finishedWithCrc c).stPass = s.stPass := rfl
@[simp] theorem State.finishedWithCrc_errs (s : State) (c : Dword) :
    (s.finishedWithCrc c).errs = s.errs := rfl
@[simp] theorem State.finishedWithCrc_tables (s : State) (c : Dword) :
    (s.finishedWithCrc c).tables = s.tables := rfl
@[simp] theorem State.finishedWithCrc_pending (s : State) (c : Dword) :
    (s.finishedWithCrc c).pending = none := rfl
@[simp] theorem State.finishedWithCrc_countdown (s : State) (c : Dword) :
    (s.finishedWithCrc c).countdown = 0 := rfl
@[simp] theorem State.finishedWithCrc_host (s : State) (c : Dword) :
    (s.finishedWithCrc c).host = s.host := rfl
@[simp] theorem State.finishedWithCrc_draws (s : State) (c : Dword) :
    (s.finishedWithCrc c).draws = s.draws := rfl
@[simp] theorem State.finishedWithCrc_resp (s : State) (c : Dword) :
    (s.finishedWithCrc c).resp = s.resp := rfl
@[simp] theorem State.finishedWithResult_params (s : State) (r : Dword) :
    (s.finishedWithResult r).params = s.params := rfl
@[simp] theorem State.finishedWithResult_cfg (s : State) (r : Dword) :
    (s.finishedWithResult r).cfg = s.cfg := rfl
@[simp] theorem State.finishedWithResult_poly (s : State) (r : Dword) :
    (s.finishedWithResult r).poly = s.poly := rfl
@[simp] theorem State.finishedWithResult_init (s : State) (r : Dword) :
    (s.finishedWithResult r).init = s.init := rfl
@[simp] theorem State.finishedWithResult_xorout (s : State) (r : Dword) :
    (s.finishedWithResult r).xorout = s.xorout := rfl
@[simp] theorem State.finishedWithResult_check (s : State) (r : Dword) :
    (s.finishedWithResult r).check = s.check := rfl
@[simp] theorem State.finishedWithResult_crc (s : State) (r : Dword) :
    (s.finishedWithResult r).crc = s.crc := rfl
@[simp] theorem State.finishedWithResult_result (s : State) (r : Dword) :
    (s.finishedWithResult r).result = r := rfl
@[simp] theorem State.finishedWithResult_pnorm (s : State) (r : Dword) :
    (s.finishedWithResult r).pnorm = s.pnorm := rfl
@[simp] theorem State.finishedWithResult_prev (s : State) (r : Dword) :
    (s.finishedWithResult r).prev = s.prev := rfl
@[simp] theorem State.finishedWithResult_din0 (s : State) (r : Dword) :
    (s.finishedWithResult r).din0 = s.din0 := rfl
@[simp] theorem State.finishedWithResult_din1 (s : State) (r : Dword) :
    (s.finishedWithResult r).din1 = s.din1 := rfl
@[simp] theorem State.finishedWithResult_din2 (s : State) (r : Dword) :
    (s.finishedWithResult r).din2 = s.din2 := rfl
@[simp] theorem State.finishedWithResult_din3 (s : State) (r : Dword) :
    (s.finishedWithResult r).din3 = s.din3 := rfl
@[simp] theorem State.finishedWithResult_valid (s : State) (r : Dword) :
    (s.finishedWithResult r).valid = s.valid := rfl
@[simp] theorem State.finishedWithResult_stDone (s : State) (r : Dword) :
    (s.finishedWithResult r).stDone = s.stDone := rfl
@[simp] theorem State.finishedWithResult_stPass (s : State) (r : Dword) :
    (s.finishedWithResult r).stPass = s.stPass := rfl
@[simp] theorem State.finishedWithResult_errs (s : State) (r : Dword) :
    (s.finishedWithResult r).errs = s.errs := rfl
@[simp] theorem State.finishedWithResult_tables (s : State) (r : Dword) :
    (s.finishedWithResult r).tables = s.tables := rfl
@[simp] theorem State.finishedWithResult_pending (s : State) (r : Dword) :
    (s.finishedWithResult r).pending = none := rfl
@[simp] theorem State.finishedWithResult_countdown (s : State) (r : Dword) :
    (s.finishedWithResult r).countdown = 0 := rfl
@[simp] theorem State.finishedWithResult_host (s : State) (r : Dword) :
    (s.finishedWithResult r).host = s.host := rfl
@[simp] theorem State.finishedWithResult_draws (s : State) (r : Dword) :
    (s.finishedWithResult r).draws = s.draws := rfl
@[simp] theorem State.finishedWithResult_resp (s : State) (r : Dword) :
    (s.finishedWithResult r).resp = s.resp := rfl

/-! ## The bus -/

/-- Every register's offset names it. -/
theorem Reg.ofOffset_offset (r : Reg) : Reg.ofOffset r.offset = some r := by cases r <;> rfl

/-- Every register's offset is a legal place of the window. -/
theorem Reg.offset_legal (r : Reg) : accessLegal r.offset 4 = true := by cases r <;> rfl

theorem Reg.offset_lt (r : Reg) : r.offset < 4096 := by cases r <;> decide

/-- A reserved offset is none of the registers' (20_memory.md R50). -/
theorem Reg.ofOffset_reserved {off : Nat} (h : 0x060 ≤ off) : Reg.ofOffset off = none := by
  unfold Reg.ofOffset
  split <;> first | omega | rfl

/-- An offset of the window is found from its platform address. -/
theorem offsetOf_base (p : Params) {off : Nat} (h : off < 4096) : offsetOf p (p.base + off) = some off := by
  simp [offsetOf, h]

theorem resetNext_eq_false_of_write {s : State} {off size : Nat} {v : Word} {rest : List HostAction}
    (h : s.NextWrite off size v rest) : s.resetNext = false := by
  simp [State.resetNext, State.NextWrite] at *
  simp [h]

theorem resetNext_eq_false_of_read {s : State} {off size : Nat} {rest : List HostAction}
    (h : s.NextRead off size rest) : s.resetNext = false := by
  simp [State.resetNext, State.NextRead] at *
  simp [h]

/-- Nothing pending: the host acts. -/
theorem nextAction_idle {s : State} (h : s.pending = none) : nextAction s = hostTurn s := by
  simp [nextAction, h]

/-- A reset goes before everything. -/
theorem nextAction_reset {s : State} (h : s.resetNext = true) : nextAction s = hostTurn s := by
  cases hp : s.pending <;> simp [nextAction, h, hp]

/-- A pending command whose cycles have not passed: the host acts. -/
theorem nextAction_busy {s : State} (hp : s.pending ≠ none) (hc : s.countdown ≠ 0) (hr : s.resetNext = false) :
    nextAction s = hostTurn s.elapsed := by
  cases h : s.pending with
  | none => exact absurd h hp
  | some i => simp [nextAction, h, hr, hc, State.elapsed]

/-- A pending command whose cycles have passed completes. -/
theorem nextAction_complete {s : State} {i : Instr} (hp : s.pending = some i) (hc : s.countdown = 0)
    (hr : s.resetNext = false) : nextAction s = .run i s := by
  simp [nextAction, hp, hr, hc]

theorem step_of_done {s t : State} (h : nextAction s = .done t) : step s = .next t := by simp [step, h]

theorem step_of_run {s t : State} {i : Instr} (h : nextAction s = .run i t) : step s = exec i t := by simp [step, h]

/-- The host's turn at a write inside the window. -/
theorem hostTurn_write {s : State} {off size : Nat} {v : Word} {rest : List HostAction} (h : s.NextWrite off size v rest)
    (ho : off < 4096) : hostTurn s = { s with host := rest }.busWrite off size v := by
  unfold hostTurn
  rw [show s.host = _ from h]
  simp [offsetOf_base s.params ho]

/-- The host's turn at a read inside the window. -/
theorem hostTurn_read {s : State} {off size : Nat} {rest : List HostAction} (h : s.NextRead off size rest)
    (ho : off < 4096) : hostTurn s = .done ({ s with host := rest }.busRead off size) := by
  unfold hostTurn
  rw [show s.host = _ from h]
  simp [offsetOf_base s.params ho]

/-- A legal write while BUSY = 1 is dropped (60_exceptions.md R213). -/
theorem busWrite_busy {s : State} {off size : Nat} {v : Word} (hl : accessLegal off size = true) (hp : s.pending ≠ none) :
    s.busWrite off size v = .done ((s.raise .busy).respond none false) := by
  simp [State.busWrite, hl, busy_eq_true.2 hp]

/-- An illegal write is refused whatever else holds (20_memory.md R53). -/
theorem busWrite_illegal {s : State} {off size : Nat} {v : Word} (hl : accessLegal off size = false) :
    s.busWrite off size v = .done (s.refuseAccess none) := by
  simp [State.busWrite, hl]

/-- A legal write to CMD, not busy. -/
theorem busWrite_cmd {s : State} {v : Word} (hp : s.pending = none) :
    s.busWrite 0x004 4 v = (s.respond none false).writeCmd v := by
  simp [State.busWrite, accessLegal, busy_eq_false.2 hp, Reg.ofOffset]

/-- A legal write to a register other than CMD, not busy. -/
theorem busWrite_reg {s : State} {r : Reg} {v : Word} (hp : s.pending = none) (hr : r ≠ .cmd) :
    s.busWrite r.offset 4 v = .done ((s.respond none false).writeReg r v) := by
  cases r <;> first | exact absurd rfl hr |
    simp [State.busWrite, accessLegal, busy_eq_false.2 hp, Reg.ofOffset, Reg.offset]

/-- All a step can do: the completion of the pending command, or the host's turn. -/
theorem nextAction_cases (s : State) :
    (∃ i, s.pending = some i ∧ s.countdown = 0 ∧ s.resetNext = false ∧ nextAction s = .run i s) ∨
    (s.pending = none ∧ nextAction s = hostTurn s) ∨
    (s.resetNext = true ∧ nextAction s = hostTurn s) ∨
    (s.pending ≠ none ∧ s.countdown ≠ 0 ∧ s.resetNext = false ∧ nextAction s = hostTurn s.elapsed) := by
  by_cases hp : s.pending = none
  · exact .inr (.inl ⟨hp, nextAction_idle hp⟩)
  · cases hr : s.resetNext with
    | true => exact .inr (.inr (.inl ⟨rfl, nextAction_reset hr⟩))
    | false =>
      by_cases hc : s.countdown = 0
      · obtain ⟨i, hi⟩ := Option.ne_none_iff_exists'.1 hp
        exact .inl ⟨i, hi, hc, rfl, nextAction_complete hi hc hr⟩
      · exact .inr (.inr (.inr ⟨hp, hc, rfl, nextAction_busy hp hc hr⟩))

end Sys2Proof.Machine
end

