-- ==== Sys2Proof/Laws/Decode.lean ====
section
/-! SUPPORT. What a decoded command is, said once for each format (30_encoding.md R72 to R75). -/

namespace Sys2Proof

/-- A format N word decodes to its command only with bits 31:4 zero. -/
theorem decodeN_command {i j : Instr} {w : Word} (h : decodeN i w = .command j) : j = i ∧ w.extractLsb' 4 28 = 0 := by
  unfold decodeN at h
  split at h <;> simp_all

/-- A format U word decodes to its command only with bits 31:9 zero and a legal LEN. -/
theorem decodeU_command {mk : BitVec 5 → Instr} {j : Instr} {w : Word} (h : decodeU mk w = .command j) :
    j = mk (lenField w) ∧ lenLegal (lenField w) = true ∧ w.extractLsb' 9 23 = 0 := by
  unfold decodeU at h
  split at h
  · split at h <;> simp_all
  · simp at h

/-- A format S word decodes to SELFTEST only with bits 31:7 zero and a legal ENG. -/
theorem decodeS_command {m : SliceMax} {j : Instr} {w : Word} (h : decodeS m w = .command j) :
    ∃ e, Engine.ofCode (engField w) = some e ∧ j = .selftest e ∧ e.present m = true ∧ w.extractLsb' 7 25 = 0 := by
  unfold decodeS at h
  split at h
  · rename_i hz
    split at h
    · rename_i e he
      split at h
      · rename_i hp
        exact ⟨e, he, by simpa using h.symm, hp, hz⟩
      · simp at h
    · simp at h
  · simp at h

/-- A format T word decodes to TBL_READ only with bits 31:20 and 7:4 zero and TK in range. -/
theorem decodeT_command {m : SliceMax} {j : Instr} {w : Word} (h : decodeT m w = .command j) :
    j = .tblRead (tkField w) (tvField w) ∧ (tkField w).toNat < m.kMax ∧ w.extractLsb' 20 12 = 0 ∧
      w.extractLsb' 4 4 = 0 := by
  unfold decodeT at h
  split at h
  · split at h <;> simp_all
  · simp at h

/-- The low four bits of a command's word are its OP. -/
theorem opField_append (u : BitVec 28) (o : BitVec 4) : opField (u ++ o) = o := by
  apply BitVec.eq_of_getLsbD_eq
  intro i hi
  rw [opField, BitVec.getLsbD_extractLsb', BitVec.getLsbD_append]
  simp [hi]

/-- The upper bits of a command's word are its fields. -/
theorem restField_append (u : BitVec 28) (o : BitVec 4) : restField (u ++ o) = u := by
  apply BitVec.eq_of_getLsbD_eq
  intro i hi
  rw [restField, BitVec.getLsbD_extractLsb', BitVec.getLsbD_append]
  simp [hi]

end Sys2Proof
end

