-- ==== Sys2Proof/Laws/PerInstr.lean ====
section
/-! SUPPORT. Statements made for each command as syntax. Family OpOfWord: the OP field of a command's word is the
command's OP (30_encoding.md R71, R77). -/

namespace Sys2Proof.Laws.OpOfWord

/-- The family's statement. -/
def Statement (i : Instr) : Prop := opField (encode i) = i.op

theorem nop : Statement .nop := opField_append _ _
theorem construct : Statement .construct := opField_append _ _
theorem init : Statement .init := opField_append _ _
theorem updBit (len : BitVec 5) : Statement (.updBit len) := opField_append _ _
theorem updTbl (len : BitVec 5) : Statement (.updTbl len) := opField_append _ _
theorem updS4 (len : BitVec 5) : Statement (.updS4 len) := opField_append _ _
theorem updS8 (len : BitVec 5) : Statement (.updS8 len) := opField_append _ _
theorem updS16 (len : BitVec 5) : Statement (.updS16 len) := opField_append _ _
theorem finalize : Statement .finalize := opField_append _ _
theorem selftest (eng : Engine) : Statement (.selftest eng) := opField_append _ _
theorem tblRead (k : BitVec 4) (v : Byte) : Statement (.tblRead k v) := opField_append _ _
theorem reservedB (rest : BitVec 28) : Statement (.reservedB rest) := opField_append _ _
theorem reservedC (rest : BitVec 28) : Statement (.reservedC rest) := opField_append _ _
theorem reservedD (rest : BitVec 28) : Statement (.reservedD rest) := opField_append _ _
theorem reservedE (rest : BitVec 28) : Statement (.reservedE rest) := opField_append _ _
theorem reservedF (rest : BitVec 28) : Statement (.reservedF rest) := opField_append _ _

end Sys2Proof.Laws.OpOfWord
end

