-- ==== Sys2Proof/Laws/Tables.lean ====
section
/-! SUPPORT. The form of the tables: what the builder builds has it, and an entry of built tables is where it is looked
for (10_state.md R37; 44_table_builder.md R185). -/

namespace Sys2Proof.Machine

theorem seedsUp_length {w : Nat} (pn p : BitVec w) (n : Nat) : (seedsUp pn n p).length = n := by
  induction n generalizing p with
  | zero => rfl
  | succ n ih => simp [seedsUp, ih]

theorem seedsDown_length {w : Nat} (pr p : BitVec w) (n : Nat) (acc : List (BitVec w)) :
    (seedsDown pr n p acc).length = n + acc.length := by
  induction n generalizing p acc with
  | zero => simp [seedsDown]
  | succ n ih => simp [seedsDown, ih]; omega

theorem seeds_length {w : Nat} (refl : Bool) (pn : BitVec w) : (seeds refl pn).length = 8 := by
  cases refl <;> simp [seeds, seedsUp_length, seedsDown_length]

/-- Each seed doubles the table. -/
theorem fill_length {w : Nat} (ps t : List (BitVec w)) :
    (ps.foldl (fun t p => t ++ t.map (fun e => p ^^^ e)) t).length = 2 ^ ps.length * t.length := by
  induction ps generalizing t with
  | nil => simp
  | cons p ps ih => simp only [List.foldl_cons, ih, List.length_append, List.length_map, List.length_cons, Nat.pow_succ,
      Nat.mul_assoc]; congr 1; omega

theorem baseTable_length {w : Nat} (refl : Bool) (pn : BitVec w) : (baseTable refl pn).length = 256 := by
  simp [baseTable, fillTable, fill_length, seeds_length]

theorem chainRows_length {w : Nat} (refl : Bool) (t0 row : List (BitVec w)) (n : Nat) :
    (chainRows refl t0 n row).length = n := by
  induction n generalizing row with
  | zero => rfl
  | succ n ih => simp [chainRows, ih]

theorem chainRows_row_length {w : Nat} (refl : Bool) (t0 row : List (BitVec w)) (n : Nat) :
    ∀ r ∈ chainRows refl t0 n row, r.length = row.length := by
  induction n generalizing row with
  | zero => simp [chainRows]
  | succ n ih =>
    intro r hr
    rcases List.mem_cons.1 hr with h | h
    · rw [h]
    · simpa using ih _ r h

/-- What CONSTRUCT builds has the form of the tables. -/
theorem buildTables_wf {w : Nat} (refl : Bool) (pn : BitVec w) (m : SliceMax) :
    (buildTables refl pn m.kMax).wf m = true := by
  simp only [buildTables, TableStore.wf, tableRows, List.length_map, chainRows_length, decide_true, Bool.true_and,
    List.all_map, List.all_eq_true]
  intro row hrow
  simp [chainRows_row_length refl _ _ _ row hrow, baseTable_length]

theorem unspecified_wf (m : SliceMax) : TableStore.unspecified.wf m = true := rfl

/-- The tables have their form at reset. -/
theorem reset_tables_wf (p : Params) : (State.resetOf p).tables.wf p.sliceMax = true := rfl

/-- Row k of the chain is the first one advanced k times. -/
theorem chainRows_getElem? {w : Nat} (refl : Bool) (t0 row : List (BitVec w)) (n k : Nat) (h : k < n) :
    (chainRows refl t0 n row)[k]? = some (row.map (Nat.repeat (chainEntry refl t0) k)) := by
  induction n generalizing row k with
  | zero => omega
  | succ n ih =>
    cases k with
    | zero => simp [chainRows, Nat.repeat]
    | succ k =>
      simp only [chainRows, List.getElem?_cons_succ]
      rw [ih _ _ (by omega)]
      have hcomm : ∀ e, Nat.repeat (chainEntry refl t0) k (chainEntry refl t0 e) =
          Nat.repeat (chainEntry refl t0) (k + 1) e := by
        intro e
        clear h
        induction k with
        | zero => rfl
        | succ k ihk => simp only [Nat.repeat] at *; rw [ihk]
      simp only [List.map_map]
      congr 2
      funext e
      exact hcomm e

end Sys2Proof.Machine
end

