-- ==== Sys2Proof/Laws/Step.lean ====
section
/-! SUPPORT. Everything one turn of the host and one step of the machine can do, said once: the inversion lemmas that
proofs about a step cite instead of unfolding it; and that every step keeps the form of the tables. -/

namespace Sys2Proof.Machine

/-- Nothing of the block changed but PENDING, the error bits and the model's own fields. -/
def Keeps (s t : State) : Prop :=
  t.params = s.params ∧ t.cfg = s.cfg ∧ t.poly = s.poly ∧ t.init = s.init ∧ t.xorout = s.xorout ∧ t.check = s.check ∧
  t.crc = s.crc ∧ t.result = s.result ∧ t.pnorm = s.pnorm ∧ t.prev = s.prev ∧ t.din0 = s.din0 ∧ t.din1 = s.din1 ∧
  t.din2 = s.din2 ∧ t.din3 = s.din3 ∧ t.valid = s.valid ∧ t.stDone = s.stDone ∧ t.stPass = s.stPass ∧
  t.tables = s.tables

/-- The CMD write of a taken host action, by what its word decodes to. -/
theorem writeCmd_eq (s : State) (rest : List HostAction) (v : Word) :
    (State.respond { s with host := rest } none false).writeCmd v =
      match decode s.sliceMax v with
      | .command i => .run i (s.answered rest none false)
      | .absent => .done ((s.answered rest none false).raise .opc)
      | .illFormed => .done ((s.answered rest none false).raise .arg) := rfl

/-- A read, legal or refused, changes nothing of the block but E_ACC. -/
theorem busRead_keeps (s : State) (off size : Nat) :
    Keeps s (s.busRead off size) ∧ (s.busRead off size).pending = s.pending ∧
    (s.busRead off size).countdown = s.countdown ∧ (s.busRead off size).host = s.host ∧
    ((s.busRead off size).errs = s.errs ∨ (s.busRead off size).errs = s.errs ||| ErrorCode.acc.bit) := by
  unfold State.busRead State.readLegal State.refuseAccess
  split
  · cases Reg.ofOffset off <;> simp [Keeps]
  · simp [Keeps]

/-- All a turn of the host can do: at most set one error bit, assert reset, write a register, or issue a command. -/
theorem hostTurn_cases (s : State) :
    (∃ t, hostTurn s = .done t ∧ Keeps s t ∧ t.pending = s.pending ∧ t.countdown = s.countdown ∧
      (t.errs = s.errs ∨ ∃ e : ErrorCode, t.errs = s.errs ||| e.bit)) ∨
    (∃ rest, s.host = .reset :: rest ∧ hostTurn s = .done (State.resetBlock { s with host := rest })) ∨
    (∃ r v rest, s.pending = none ∧ r ≠ .cmd ∧ s.NextWrite r.offset 4 v rest ∧
      hostTurn s = .done ((s.answered rest none false).writeReg r v)) ∨
    (∃ i v rest, s.pending = none ∧ s.NextWrite 4 4 v rest ∧ decode s.sliceMax v = .command i ∧
      hostTurn s = .run i (s.answered rest none false)) := by
  unfold hostTurn
  split
  · exact .inl ⟨s, rfl, by simp [Keeps]⟩
  · exact .inl ⟨_, rfl, by simp [Keeps]⟩
  · rename_i rest h
    exact .inr (.inl ⟨rest, h, rfl⟩)
  · rename_i rest h
    have := busRead_keeps { s with host := if s.busy then s.host else rest } (Reg.offset .status) 4
    refine .inl ⟨_, rfl, this.1, this.2.1, this.2.2.1, ?_⟩
    exact this.2.2.2.2.imp id (fun h => ⟨_, h⟩)
  · rename_i addr size rest h
    split
    · rename_i off ho
      have := busRead_keeps { s with host := rest } off size
      refine .inl ⟨_, rfl, this.1, this.2.1, this.2.2.1, ?_⟩
      exact this.2.2.2.2.imp id (fun h => ⟨_, h⟩)
    · exact .inl ⟨_, rfl, by simp [Keeps]⟩
  · rename_i addr size v rest h
    split
    · rename_i off ho
      have hoff : addr = s.params.base + off ∧ off < 4096 := by
        unfold offsetOf at ho
        split at ho <;> simp at ho
        omega
      unfold State.busWrite
      split
      · rename_i hl
        simp [accessLegal] at hl
        split
        · exact .inl ⟨_, rfl, by simp [Keeps], rfl, rfl, .inr ⟨.busy, rfl⟩⟩
        · rename_i hb
          have hp : s.pending = none := by
            apply busy_eq_false.1
            simpa [State.busy] using hb
          split
          · rename_i hr
            have : off = 4 := by
              unfold Reg.ofOffset at hr
              split at hr <;> simp at hr
              rfl
            subst this
            rcases hd : decode s.sliceMax v with i | _ | _
            · refine .inr (.inr (.inr ⟨i, v, rest, hp, ?_, hd, ?_⟩))
              · unfold State.NextWrite
                rw [h, hoff.1, hl.1]
              · rw [writeCmd_eq, hd]
            · refine .inl ⟨(s.answered rest none false).raise .opc, ?_, by simp [Keeps, State.answered], rfl, rfl,
                .inr ⟨.opc, rfl⟩⟩
              rw [writeCmd_eq, hd]
            · refine .inl ⟨(s.answered rest none false).raise .arg, ?_, by simp [Keeps, State.answered], rfl, rfl,
                .inr ⟨.arg, rfl⟩⟩
              rw [writeCmd_eq, hd]
          · rename_i r hne hr
            refine .inr (.inr (.inl ⟨r, v, rest, hp, ?_, ?_, rfl⟩))
            · intro h2
              subst h2
              exact hne rfl
            · have : off = r.offset := by
                unfold Reg.ofOffset at hr
                split at hr <;> simp at hr <;> subst hr <;> rfl
              unfold State.NextWrite
              rw [h, hoff.1, hl.1, this]
          · exact .inl ⟨_, rfl, by simp [Keeps]⟩
      · exact .inl ⟨_, rfl, by simp [Keeps, State.refuseAccess], rfl, rfl, .inr ⟨.acc, rfl⟩⟩
    · exact .inl ⟨_, rfl, by simp [Keeps]⟩

/-- The next action is a reset only as the first of the list. -/
theorem host_of_resetNext {s : State} (h : s.resetNext = true) : ∃ rest, s.host = .reset :: rest := by
  unfold State.resetNext at h
  split at h
  · rename_i rest hh
    exact ⟨rest, hh⟩
  · simp at h

theorem resetNext_of_host {s : State} {rest : List HostAction} (h : s.host = .reset :: rest) : s.resetNext = true := by
  simp [State.resetNext, h]

/-- A reset, once it is next, is what the step does. -/
theorem step_reset {s : State} {rest : List HostAction} (h : s.host = .reset :: rest) :
    step s = .next (State.resetBlock { s with host := rest }) :=
  step_of_done (by rw [nextAction_reset (resetNext_of_host h)]; simp [hostTurn, h])

/-- All a step can do: the completion of the pending command; a reset; a turn of the host that at most sets one error
bit; an accepted register write; or the issue of a command. -/
theorem step_cases {s t : State} (h : step s = .next t) :
    (∃ i, s.pending = some i ∧ s.countdown = 0 ∧ s.resetNext = false ∧ t = (effectOf i s).retire) ∨
    (∃ rest, s.host = .reset :: rest ∧ t = State.resetBlock { s with host := rest }) ∨
    (s.resetNext = false ∧ (s.pending = none ∨ s.countdown ≠ 0) ∧ Keeps s t ∧ t.pending = s.pending ∧
      t.countdown = s.countdown - (if s.pending = none then 0 else 1) ∧
      (t.errs = s.errs ∨ ∃ e : ErrorCode, t.errs = s.errs ||| e.bit)) ∨
    (s.resetNext = false ∧ ∃ r v rest, s.pending = none ∧ r ≠ .cmd ∧ s.NextWrite r.offset 4 v rest ∧
      t = (s.answered rest none false).writeReg r v) ∨
    (s.resetNext = false ∧ ∃ i v rest, s.pending = none ∧ s.NextWrite 4 4 v rest ∧ decode s.sliceMax v = .command i ∧
      t = issue i (s.answered rest none false)) := by
  cases hr : s.resetNext with
  | true =>
    obtain ⟨rest, hh⟩ := host_of_resetNext hr
    rw [step_reset hh] at h
    cases h
    exact .inr (.inl ⟨rest, hh, rfl⟩)
  | false =>
    have hnr : ∀ u : State, u.host = s.host → ∀ rest, u.host ≠ .reset :: rest := by
      intro u hu rest hh
      rw [resetNext_of_host (hu ▸ hh)] at hr
      exact absurd hr (by simp)
    rcases nextAction_cases s with ⟨i, hp, hc, _, hn⟩ | ⟨hp, hn⟩ | ⟨hr', _⟩ | ⟨hp, hc, _, hn⟩
    · rw [step_of_run hn, exec_completes hp] at h
      cases h
      exact .inl ⟨i, hp, hc, rfl, rfl⟩
    · rcases hostTurn_cases s with ⟨u, hu, hk, hp2, hc2, he⟩ | ⟨r2, h2, _⟩ | ⟨r, v, r2, h1, h2, hw, hu⟩ |
        ⟨i, v, r2, h1, hw, hd, hu⟩
      · rw [step_of_done (hn.trans hu)] at h
        cases h
        exact .inr (.inr (.inl ⟨rfl, .inl hp, hk, hp2, by simp [hp, hc2], he⟩))
      · exact absurd h2 (hnr s rfl _)
      · rw [step_of_done (hn.trans hu)] at h
        cases h
        exact .inr (.inr (.inr (.inl ⟨rfl, r, v, r2, h1, h2, hw, rfl⟩)))
      · rw [step_of_run (hn.trans hu), exec_issues (by simp [State.answered, h1])] at h
        cases h
        exact .inr (.inr (.inr (.inr ⟨rfl, i, v, r2, h1, hw, hd, rfl⟩)))
    · rw [hr] at hr'
      exact absurd hr' (by simp)
    · rcases hostTurn_cases s.elapsed with ⟨u, hu, hk, hp2, hc2, he⟩ | ⟨r2, h2, _⟩ | ⟨r, v, r2, h1, _⟩ | ⟨i, v, r2, h1, _⟩
      · rw [step_of_done (hn.trans hu)] at h
        cases h
        exact .inr (.inr (.inl ⟨rfl, .inr hc, hk, hp2, by simp [hp, hc2, State.elapsed], he⟩))
      · exact absurd h2 (hnr s.elapsed rfl _)
      · exact absurd h1 hp
      · exact absurd h1 hp

/-- One more step of a run. -/
theorem core_run_succ (k : Nat) (s : State) :
    Host.Core.run Sys2Proof.core (k + 1) s =
      match step s with
      | .next t => Host.Core.run Sys2Proof.core k t
      | .fault r => .fault r
      | .refused r => .refused r := by
  simp only [Host.Core.run]
  cases h : step s <;> simp_all [core]

/-- Every operation on the tables keeps their form (10_state.md R37). -/
theorem effectOf_tables_wf {i : Instr} {s : State} (h : s.tables.wf s.sliceMax = true) :
    (effectOf i s).tables.wf s.sliceMax = true := by
  cases i <;> simp [effectOf, updateEffect, constructEffect, selftestEffect] <;> (try split) <;>
    simp [h, constructFrom, buildTables_wf]

/-- Every step keeps the form of the tables. -/
theorem step_keeps_tables_wf {s t : State} (hw : s.tables.wf s.sliceMax = true) (h : step s = .next t) :
    t.tables.wf t.sliceMax = true := by
  rcases step_cases h with ⟨i, _, _, _, rfl⟩ | ⟨rest, _, rfl⟩ | ⟨_, _, hk, _⟩ | ⟨_, r, v, rest, _, _, _, rfl⟩ |
    ⟨_, i, v, rest, _, _, _, rfl⟩
  · have hm : ((effectOf i s).retire).sliceMax = s.sliceMax := by simp [State.sliceMax, effectOf_frame i s]
    rw [hm]
    exact effectOf_tables_wf hw
  · rfl
  · simp_all [Keeps, State.sliceMax]
  · cases r <;> first | rfl | exact hw
  · rcases issue_cases i (s.answered rest none false) with ⟨e, he⟩ | ⟨_, _, he⟩ <;> rw [he] <;> exact hw

end Sys2Proof.Machine
end

