-- ==== Sys2Proof/Tests/Slice0.lean ====
section
/-! SUPPORT. The model's own tests: ill-formed terms and words are refused, words written out from the formats of
30_encoding.md decode to their commands, and one step of each command gives the value of 95_test_vectors.md (V-…, P…);
and for each statement with hypotheses a concrete state and operands that meet them. -/

namespace Sys2Proof.Tests

open Sys2Proof.Machine

/-! ## Helpers -/

/-- The reset state of an instance without a bus error response. -/
def idle (m : SliceMax) : State := State.resetOf ⟨m, 0, false⟩

/-- An idle block and what the host does next. -/
def hostDoes (h : List HostAction) : State := { idle .sixteen with host := h }

/-- A pending command whose cycles have passed. -/
def holding (i : Instr) : State := { idle .sixteen with pending := some i }

/-- A pending command with one cycle to go, and what the host does next. -/
def waiting (i : Instr) (h : List HostAction) : State := { holding i with countdown := 1, host := h }

/-- A write of v at an offset of the window. -/
def wr4 (off : Nat) (v : Word) : List HostAction := [.write off 4 v]

/-- A read at an offset of the window. -/
def rd4 (off : Nat) : List HostAction := [.read off 4]

/-- The block of section 2.0's fixtures after CONSTRUCT: CFG with PFMT = 0, and the Normal form. -/
def fixture (m : SliceMax) (cfg : BitVec 5) (poly : Dword) : State :=
  constructFrom .normal { idle m with cfg := cfg, poly := poly }

/-- DIN holds "12345678" and "9ABCDEFG", byte 0 lowest (10_state.md R29). -/
def withDigits (s : State) : State := { s with din0 := 0x34333231, din1 := 0x38373635, din2 := 0x43424139, din3 := 0x47464544 }

/-- The next state, if there is one. -/
def next? (o : Host.Outcome State Fault Refusal) : Option State :=
  match o with
  | .next t => some t
  | .fault _ => none
  | .refused _ => none

/-- The completion of a command from a state. -/
def completed (i : Instr) (s : State) : Option State := next? (exec i { s with pending := some i })

/-- The issue of a command word on an idle state: one step. -/
def written (s : State) (w : Word) : Option State := next? (step { s with host := wr4 4 w })

/-- The STATUS word a state stores. -/
def statusAfter (o : Option State) : Option Word := o.map (fun t => t.stored .status)

/-! ## WellFormed: an ill-formed term for each check -/

/-- LEN = 17 (30_encoding.md R73). -/
theorem test_illFormed_len : (Instr.updBit 17).wellFormed .sixteen = false ∧ (Instr.updTbl 31).wellFormed .sixteen = false ∧
    (Instr.updS4 17).wellFormed .sixteen = false := by decide

/-- UPD_S8 and UPD_S16 where the instance lacks them (R78). -/
theorem test_illFormed_absent : (Instr.updS8 1).wellFormed .four = false ∧ (Instr.updS16 1).wellFormed .eight = false := by
  decide

/-- ENG of an absent engine (R74). -/
theorem test_illFormed_eng :
    (Instr.selftest .s8).wellFormed .four = false ∧ (Instr.selftest .s16).wellFormed .eight = false := by decide

/-- TK = K_MAX (R75). -/
theorem test_illFormed_tk : (Instr.tblRead 4 0).wellFormed .four = false ∧ (Instr.tblRead 8 0).wellFormed .eight = false := by
  decide

/-- A reserved OP is never well-formed (R78). -/
theorem test_illFormed_reserved : (Instr.reservedB 0).wellFormed .sixteen = false ∧
    (Instr.reservedF 0).wellFormed .sixteen = false := by decide

/-- The boundary values that are legal. -/
theorem test_wellFormed_bounds : (Instr.updBit 16).wellFormed .four = true ∧ (Instr.updS8 0).wellFormed .eight = true ∧
    (Instr.tblRead 3 255).wellFormed .four = true ∧ (Instr.tblRead 15 255).wellFormed .sixteen = true ∧
    (Instr.selftest .s16).wellFormed .sixteen = true := by decide

/-! ## Decode: words written out field by field from 30_encoding.md -/

/-- Format N: bits 31:4, then OP (R72). -/
theorem test_decode_formatN :
    decode .four 0b0000000000000000000000000000_0000 = .command .nop ∧
    decode .four 0b0000000000000000000000000000_0001 = .command .construct ∧
    decode .four 0b0000000000000000000000000000_0010 = .command .init ∧
    decode .four 0b0000000000000000000000000000_1000 = .command .finalize ∧
    decode .four 0b1000000000000000000000000000_0000 = .illFormed ∧
    decode .four 0b0000000000000000000000000001_0001 = .illFormed := by decide

/-- Format U: bits 31:9, LEN, OP (R73). LEN 16 is the last legal one. -/
theorem test_decode_formatU :
    decode .four 0b00000000000000000000000_00000_0011 = .command (.updBit 0) ∧
    decode .four 0b00000000000000000000000_00001_0100 = .command (.updTbl 1) ∧
    decode .four 0b00000000000000000000000_01001_0101 = .command (.updS4 9) ∧
    decode .eight 0b00000000000000000000000_10000_0110 = .command (.updS8 16) ∧
    decode .sixteen 0b00000000000000000000000_10000_0111 = .command (.updS16 16) ∧
    decode .sixteen 0b00000000000000000000000_10001_0011 = .illFormed ∧
    decode .sixteen 0b00000000000000000000001_00000_0101 = .illFormed ∧
    decode .eight 0b00000000000000000000000_10001_0110 = .illFormed ∧
    decode .sixteen 0b10000000000000000000000_00000_0111 = .illFormed := by decide

/-- UPD_S8 and UPD_S16 on an instance without them: E_OPC before any other check (R78, R80). -/
theorem test_decode_absent :
    decode .four 0b00000000000000000000000_00001_0110 = .absent ∧
    decode .four 0b00000000000000000000000_11111_0111 = .absent ∧
    decode .eight 0b00000000000000000000000_00001_0111 = .absent := by decide

/-- Format S: bits 31:7, ENG, OP (R74). -/
theorem test_decode_formatS :
    decode .four 0b0000000000000000000000000_000_1001 = .command (.selftest .bit) ∧
    decode .four 0b0000000000000000000000000_001_1001 = .command (.selftest .tbl) ∧
    decode .four 0b0000000000000000000000000_010_1001 = .command (.selftest .s4) ∧
    decode .eight 0b0000000000000000000000000_011_1001 = .command (.selftest .s8) ∧
    decode .sixteen 0b0000000000000000000000000_100_1001 = .command (.selftest .s16) ∧
    decode .four 0b0000000000000000000000000_011_1001 = .illFormed ∧
    decode .eight 0b0000000000000000000000000_100_1001 = .illFormed ∧
    decode .sixteen 0b0000000000000000000000000_101_1001 = .illFormed ∧
    decode .sixteen 0b0000000000000000000000001_000_1001 = .illFormed := by decide

/-- Format T: bits 31:20, TV, TK, bits 7:4, OP (R75). -/
theorem test_decode_formatT :
    decode .four 0b000000000000_00000001_0000_0000_1010 = .command (.tblRead 0 1) ∧
    decode .four 0b000000000000_10000000_0011_0000_1010 = .command (.tblRead 3 128) ∧
    decode .sixteen 0b000000000000_11111111_1111_0000_1010 = .command (.tblRead 15 255) ∧
    decode .four 0b000000000000_00000001_0100_0000_1010 = .illFormed ∧
    decode .sixteen 0b000000000000_00000000_0000_0001_1010 = .illFormed ∧
    decode .sixteen 0b000000000001_00000000_0000_0000_1010 = .illFormed := by decide

/-- The reserved OPs 0xB to 0xF (R78). -/
theorem test_decode_reserved :
    decode .four 0b0000000000000000000000000000_1011 = .command (.reservedB 0) ∧
    decode .four 0b0000000000000000000000000001_1100 = .command (.reservedC 1) ∧
    decode .four 0b1000000000000000000000000000_1101 = .command (.reservedD 0x8000000) ∧
    decode .four 0b0000000000000000000000000010_1110 = .command (.reservedE 2) ∧
    decode .sixteen 0b1111111111111111111111111111_1111 = .command (.reservedF 0xFFFFFFF) := by decide

/-! ## One step of each command -/

/-- R100: NOP changes nothing. -/
theorem test_nop : completed .nop (hostDoes []) = some (idle .sixteen) := by decide

/-- V-P1, V-P3: CONSTRUCT from Normal 0x07 and from Koopman 0x83, W = 8. -/
theorem test_construct_w8 :
    (completed .construct { idle .four with poly := 0x07 }).map (fun t => (t.pnorm, t.prev, t.valid)) =
      some (0x07, 0xE0, true) ∧
    (completed .construct { idle .four with cfg := 0x10, poly := 0x83 }).map (fun t => (t.pnorm, t.prev, t.valid)) =
      some (0x07, 0xE0, true) := by decide +kernel

/-- V-P8, V-P18: CONSTRUCT from Reverse form at W = 64, and with POLY[63:16] ignored at W = 16. -/
theorem test_construct_wide :
    (completed .construct { idle .four with cfg := 0x0B, poly := 0xD800000000000000 }).map (fun t => (t.pnorm, t.prev)) =
      some (0x1B, 0xD800000000000000) ∧
    (completed .construct { idle .four with cfg := 0x01, poly := 0x100001021 }).map (fun t => (t.pnorm, t.prev)) =
      some (0x1021, 0x8408) := by decide +kernel

/-- V-I1, V-I2: INIT drops the bits above W. -/
theorem test_init :
    (completed .init { fixture .four 0x01 0x1021 with init := 0x123456789ABCFFFF }).map (·.crc) = some 0xFFFF ∧
    (completed .init { fixture .four 0x03 0x1B with init := 0xFFFFFFFFFFFFFFFF }).map (·.crc) =
      some 0xFFFFFFFFFFFFFFFF := by decide +kernel

/-- V-F1: FINAL, CRC unchanged. -/
theorem test_final :
    (completed .finalize { fixture .four 0x06 0x04C11DB7 with crc := 0x340BC6D9, xorout := 0xFFFFFFFF }).map
      (fun t => (t.result, t.crc)) = some (0xCBF43926, 0x340BC6D9) := by decide +kernel

/-- V-HIGH: FINAL reads CRC[W-1:0]. -/
theorem test_final_high :
    (completed .finalize { fixture .four 0x01 0x1021 with crc := 0x12345 }).map (·.result) = some 0x2345 := by
  decide +kernel

/-- V-BIT1: UPD_BIT of "A" under XMODEM. V-EMPTY: LEN = 0 keeps all 64 bits. -/
theorem test_updBit :
    (completed (.updBit 1) { fixture .four 0x01 0x1021 with din0 := 0x41 }).map (·.crc) = some 0x58E5 ∧
    (completed (.updBit 0) { fixture .four 0x01 0x1021 with crc := 0x12345 }).map (·.crc) = some 0x12345 := by
  decide +kernel

/-- R151's example: UPD_TBL of "1" under CRC-32; and section 2.3's "1234" under SMBUS. -/
theorem test_updTbl :
    (completed (.updTbl 1) { withDigits (fixture .four 0x06 0x04C11DB7) with crc := 0xFFFFFFFF }).map (·.crc) =
      some 0x7C231048 ∧
    (completed (.updTbl 4) (withDigits (fixture .four 0x00 0x07))).map (·.crc) = some 0xC2 := by decide +kernel

/-- R162's example: UPD_S4 of "123456789" under CRC-32, two groups and one byte. -/
theorem test_updS4 :
    (completed (.updS4 9) { withDigits (fixture .four 0x06 0x04C11DB7) with din2 := 0x39, crc := 0xFFFFFFFF }).map
      (·.crc) = some 0x340BC6D9 := by decide +kernel

/-- Section 2.3's "12345678" under CRC-16/XMODEM. -/
theorem test_updS4_nonReflected :
    (completed (.updS4 8) (withDigits (fixture .four 0x01 0x1021))).map (·.crc) = some 0x9015 := by decide +kernel

/-- R163's example: UPD_S8 of "12345678" under CRC-64/XZ. -/
theorem test_updS8 :
    (completed (.updS8 8) { withDigits (fixture .eight 0x07 0x42F0E1EBA9EA3693) with crc := 0xFFFFFFFFFFFFFFFF }).map
      (·.crc) = some 0xA3747FB7D45387F6 := by decide +kernel

/-- Section 2.3's "123456789ABCDEFG" under CRC-64/ECMA-182 by UPD_S16. -/
theorem test_updS16 :
    (completed (.updS16 16)
      (withDigits (fixture .sixteen 0x03 0x42F0E1EBA9EA3693))).map (·.crc) =
      some 0x4721EA620908E840 := by decide +kernel

/-- V-T1, V-T2, V-T3: SELFTEST of CRC-8/SMBUS. -/
theorem test_selftest :
    (completed (.selftest .bit) { fixture .four 0x00 0x07 with check := 0xF4 }).map (fun t => (t.result, t.stored .status)) =
      some (0xF4, 0x0000000E) ∧
    (completed (.selftest .tbl) { fixture .four 0x00 0x07 with check := 0xF5 }).map (fun t => (t.result, t.stored .status)) =
      some (0xF4, 0x00000006) := by decide +kernel

/-- V-T3: only CHECK[7:0] is compared, and CRC is not touched. -/
theorem test_selftest_s4 :
    (completed (.selftest .s4) { fixture .four 0x00 0x07 with check := 0x12345678000000F4, crc := 0x5A }).map
      (fun t => (t.stPass, t.crc)) = some (true, 0x5A) := by decide +kernel

/-- Section 2.5: T0[80] of CRC-32 is PR, and T3[FF] of XMODEM. -/
theorem test_tblRead :
    (completed (.tblRead 0 0x80) (fixture .four 0x06 0x04C11DB7)).map (·.result) = some 0xEDB88320 ∧
    (completed (.tblRead 3 0xFF) (fixture .four 0x01 0x1021)).map (·.result) = some 0x4BA3 := by decide +kernel

/-- V-E2 and R211: the reserved OPs. -/
theorem test_reserved :
    statusAfter (written (idle .four) 0x0000000B) = some 0x00000400 ∧
    statusAfter (written (idle .four) 0x0000001C) = some 0x00000400 ∧
    statusAfter (written (idle .four) 0x8000000D) = some 0x00000400 ∧
    statusAfter (written (idle .four) 0x0000000E) = some 0x00000400 ∧
    statusAfter (written (idle .four) 0xFFFFFFFF) = some 0x00000400 := by decide

/-! ## Issue and bus: section 2.2 -/

/-- V-E1, V-E3 to V-E9, from reset. -/
theorem test_issue_from_reset :
    (written (idle .four) 0x00000000).map (fun t => (t.errs, t.pending)) = some (0, some .nop) ∧
    statusAfter (written (idle .four) 0x00000013) = some 0x00001000 ∧
    statusAfter (written (idle .four) 0x00000002) = some 0x00001000 ∧
    statusAfter (written (idle .four) 0x00000111) = some 0x00000800 ∧
    statusAfter (written (idle .four) 0x00000010) = some 0x00000800 ∧
    statusAfter (written (idle .four) 0x00000200) = some 0x00000800 ∧
    statusAfter (written (idle .four) 0x00000006) = some 0x00000400 ∧
    statusAfter (written (idle .eight) 0x00000007) = some 0x00000400 := by decide

/-- V-E10 to V-E14, with VALID = 1. -/
theorem test_issue_valid :
    statusAfter (written { idle .four with valid := true } 0x00000114) = some 0x00000802 ∧
    statusAfter (written { idle .four with valid := true } 0x00000039) = some 0x00000802 ∧
    statusAfter (written { idle .four with valid := true } 0x00000059) = some 0x00000802 ∧
    statusAfter (written { idle .four with valid := true } 0x0000040A) = some 0x00000802 ∧
    statusAfter (written { idle .four with valid := true } 0x0000001A) = some 0x00000802 := by decide

/-- V-P11, V-P17: E_POLY and E_PFMT. -/
theorem test_issue_construct :
    statusAfter (written { idle .four with poly := 0x06 } 0x00000001) = some 0x00004000 ∧
    statusAfter (written { idle .four with cfg := 0x18 } 0x00000001) = some 0x00002000 := by decide

/-- V-E15, V-E16: refused accesses. V-E25: E_ACC before E_BUSY. -/
theorem test_refused :
    statusAfter (next? (step (hostDoes [.write 0 1 0xFF]))) = some 0x00000100 ∧
    (next? (step (hostDoes [.read 2 4]))).map (fun t => (t.errs, t.resp)) = some (1, ⟨some 0, false⟩) ∧
    statusAfter (next? (step (waiting .nop [.write 4 1 0]))) = some 0x00000101 := by decide

/-- V-E17, V-E18, V-E19: reserved offset, CAP, and a write while BUSY. -/
theorem test_ignored :
    statusAfter (next? (step (hostDoes (wr4 0x100 0xFFFFFFFF)))) = some 0 ∧
    (next? (step (hostDoes (rd4 0x00C)))).map (·.resp) = some ⟨some 2, false⟩ ∧
    statusAfter (next? (step (waiting (.updTbl 1) (wr4 4 4)))) = some 0x00000201 := by decide

/-- V-E20 to V-E23: writes to STATUS, CFG and INIT. -/
theorem test_register_writes :
    statusAfter (next? (step { hostDoes (wr4 8 0x00000100) with errs := 1 })) = some 0 ∧
    statusAfter (next? (step { hostDoes (wr4 8 0x0000000F) with valid := true })) = some 0x00000002 ∧
    statusAfter (next? (step { hostDoes (wr4 0 6) with valid := true, stDone := true, stPass := true })) = some 0 ∧
    statusAfter (next? (step { hostDoes (wr4 0x18 1) with valid := true })) = some 0x00000002 := by decide

/-- Every step of a command word placed by withFetchWord runs it (30_encoding.md R70). -/
theorem test_withFetchWord : (next? (step (State.reset.withFetchWord 32 0x00000010))).map (·.errs) = some 0b0001000 := by
  decide

/-- The check string is digits '1' to '9' in ASCII (40_parameter_set.md R113). -/
theorem test_checkVector : checkVector = "123456789".toList.map (fun c => BitVec.ofNat 8 c.toNat) := by decide

/-! ## Witnesses: a concrete state and operands that meet the hypotheses of each statement -/

theorem witness_DecodeEncodeRoundTrip :
    (Instr.updBit 16).wellFormed .four = true ∧ (Instr.tblRead 15 255).wellFormed .sixteen = true ∧
    (Instr.selftest .s16).wellFormed .sixteen = true ∧ (Instr.reservedF 0xFFFFFFF).isReserved = true := by decide

theorem witness_EncodeInvertsDecode :
    decode .four 0x00000103 = .command (.updBit 16) ∧ decode .sixteen 0x000FFF0A = .command (.tblRead 15 255) := by decide

/-- A word for each clause of the opcode map, at LEN 16 and 17, ENG 3 to 5 and TK 3 and 4. -/
theorem witness_DecodeFollowsTheOpcodeMap :
    (0x10 % 16 = 0x0 ∧ 0x01 % 16 = 0x1 ∧ 0x02 % 16 = 0x2 ∧ 0x08 % 16 = 0x8) ∧
    (0x103 % 16 = 0x3 ∧ 0x103 / 512 = 0 ∧ 0x103 / 16 % 32 = 16) ∧ (0x114 % 16 = 0x4 ∧ 0x114 / 16 % 32 = 17) ∧
    (0x205 % 16 = 0x5 ∧ 0x205 / 512 = 1) ∧ (0x106 % 16 = 0x6 ∧ SliceMax.kMax .four < 8 ∧ 8 ≤ SliceMax.kMax .eight) ∧
    (0x107 % 16 = 0x7 ∧ SliceMax.kMax .eight < 16 ∧ SliceMax.kMax .sixteen = 16) ∧
    (0x39 % 16 = 0x9 ∧ 0x39 / 16 = 3 ∧ 0x49 / 16 = 4 ∧ 5 ≤ 0x59 / 16) ∧
    (0x30A % 16 = 0xA ∧ 0x30A / 2 ^ 20 = 0 ∧ 0x30A / 16 % 16 = 0 ∧ 0x30A / 256 % 16 < SliceMax.kMax .four ∧
      ¬ 0x40A / 256 % 16 < SliceMax.kMax .four) ∧
    (0x0B % 16 = 0xB ∧ 0x0C % 16 = 0xC ∧ 0x0D % 16 = 0xD ∧ 0x0E % 16 = 0xE ∧ 0x0F % 16 = 0xF) := by decide

theorem witness_StepRunsTheDecodedCommand :
    (hostDoes (wr4 4 0x00000095)).NextWrite 0x004 4 0x00000095 [] ∧ (hostDoes (wr4 4 0x00000095)).pending = none ∧
    decode (hostDoes []).sliceMax 0x00000095 = .command (.updS4 9) := ⟨rfl, rfl, rfl⟩

theorem witness_CompletionIsOneStepWithoutError :
    (holding (.updBit 9)).pending = some (.updBit 9) ∧ (holding (.updBit 9)).countdown = 0 ∧
    (holding (.updBit 9)).resetNext = false := ⟨rfl, rfl, rfl⟩

/-- One state and word for each check, in the order of the checks. -/
theorem witness_IssueChecksInOrder :
    (waiting .nop (wr4 4 0)).NextWrite 0x004 4 0 [] ∧ (waiting .nop (wr4 4 0)).pending ≠ none ∧
    (waiting .nop (wr4 4 0)).countdown ≠ 0 ∧
    (hostDoes (wr4 4 0x0B)).pending = none ∧ decode .four 0x06 = .absent ∧ decode .four 0x114 = .illFormed ∧
    (decode .four 0x0B = .command (.reservedB 0) ∧ (Instr.reservedB 0).isReserved = true) ∧
    (decode .four 0x02 = .command .init ∧ (hostDoes (wr4 4 2)).valid = false) ∧
    (decode .four 0x00 = .command .nop ∧ decode .four 0x01 = .command .construct) ∧
    (fixture .four 0x00 0x07).valid = true ∧
    ({ idle .four with cfg := 0x18 } : State).cfg.extractLsb' 3 2 = 3 ∧
    ({ idle .four with cfg := 0x10, poly := 0x7F } : State).definingBitOfPoly = false ∧
    ({ idle .four with cfg := 0x10, poly := 0x80 } : State).definingBitOfPoly = true := by
  simp only [State.NextWrite]
  decide

theorem witness_EveryAcceptedCommandCompletes :
    (waiting .construct [.idle]).pending = some .construct ∧ (waiting .construct [.idle]).countdown = 1 := ⟨rfl, rfl⟩

theorem witness_WaitLoopTerminates :
    (hostDoes [.wait]).host = .wait :: [] ∧ (hostDoes [.wait]).pending = none ∧
    (waiting .nop [.wait]).host = .wait :: [] ∧ (waiting .nop [.wait]).pending ≠ none ∧
    (waiting .nop [.wait]).countdown ≠ 0 := ⟨rfl, rfl, rfl, by decide, by decide⟩

/-- The first and the last offset, each size the rule names, busy and not. -/
theorem witness_IllegalAccessIsRefused :
    (hostDoes [.write 0 1 5]).NextWrite 0 1 5 [] ∧ (hostDoes [.write 0 1 5]).HostsTurn ∧ ¬ (1 = 4 ∧ 0 % 4 = 0) ∧
    (waiting .nop [.read 4095 4]).NextRead 4095 4 [] ∧ (waiting .nop [.read 4095 4]).HostsTurn ∧
    ¬ (4 = 4 ∧ 4095 % 4 = 0) ∧ (hostDoes [.read 8 8]).NextRead 8 8 [] ∧ ¬ (8 = 4 ∧ 8 % 4 = 0) := by
  simp only [State.NextWrite, State.NextRead, State.HostsTurn]
  decide

theorem witness_WritesWhileBusyAreDropped :
    (waiting .nop (wr4 0 6)).NextWrite 0 4 6 [] ∧ (waiting .nop (rd4 4092)).NextRead 4092 4 [] ∧
    (waiting .nop (wr4 0 6)).pending ≠ none ∧ (waiting .nop (wr4 0 6)).countdown ≠ 0 ∧ 4092 < 4096 ∧ 4092 % 4 = 0 := by
  simp only [State.NextWrite, State.NextRead]
  decide

/-- The first and last reserved OP, and the absent engines, each with an instance that lacks them. -/
theorem witness_ReservedOpcodeRaisesOpc :
    (0xB ≤ 0x0B % 16 ∧ 0xB ≤ 0xFFFFFFFF % 16) ∧ (0x06 % 16 = 0x6 ∧ SliceMax.kMax .four < 8) ∧
    (0x07 % 16 = 0x7 ∧ SliceMax.kMax .eight < 16) ∧ (hostDoes (wr4 4 0x0B)).NextWrite 4 4 0x0B [] ∧
    (hostDoes (wr4 4 0x0B)).pending = none := by
  simp only [State.NextWrite]
  decide

theorem witness_ReservedCommandsRaiseOpc : (idle .four).pending = none := rfl

/-- A word for each clause, the bits at the edge of each reserved field, and an instance for each premise on SLICE_MAX. -/
theorem witness_IllFormedWordRaisesArg :
    (0x10 % 16 ∈ [0x0, 0x1, 0x2, 0x8] ∧ 0x10 / 16 ≠ 0) ∧ (0x80000008 % 16 ∈ [0x0, 0x1, 0x2, 0x8]) ∧
    (0x113 % 16 ∈ [0x3, 0x4, 0x5] ∧ 16 < 0x113 / 16 % 32) ∧ (0x205 % 16 ∈ [0x3, 0x4, 0x5] ∧ 0x205 / 512 ≠ 0) ∧
    (0x116 % 16 = 0x6 ∧ 16 < 0x116 / 16 % 32 ∧ 8 ≤ SliceMax.kMax .eight) ∧
    (0x117 % 16 = 0x7 ∧ 16 < 0x117 / 16 % 32 ∧ SliceMax.kMax .sixteen = 16) ∧
    (0x89 % 16 = 0x9 ∧ 0x89 / 128 ≠ 0) ∧ (0x59 % 16 = 0x9 ∧ 5 ≤ 0x59 / 16 % 8) ∧
    (SliceMax.kMax .four < 8 ∧ SliceMax.kMax .eight < 16) ∧
    (0x10000A % 16 = 0xA ∧ 0x10000A / 2 ^ 20 ≠ 0) ∧ (0x1A % 16 = 0xA ∧ 0x1A / 16 % 16 ≠ 0) ∧
    (0x40A % 16 = 0xA ∧ SliceMax.kMax .four ≤ 0x40A / 256 % 16) ∧
    (hostDoes (wr4 4 0x10)).NextWrite 4 4 0x10 [] ∧ (hostDoes (wr4 4 0x10)).pending = none := by
  simp only [State.NextWrite]
  decide

theorem witness_CommandsBeforeConstructRaiseNocfg :
    (hostDoes (wr4 4 0x103)).NextWrite 0x004 4 (encode (.updBit 16)) [] ∧ (hostDoes (wr4 4 0x103)).pending = none ∧
    (Instr.updBit 16).wellFormed (hostDoes []).sliceMax = true ∧ (Instr.updBit 16) ≠ .nop ∧
    (Instr.updBit 16) ≠ .construct ∧ (hostDoes (wr4 4 0x103)).valid = false := by
  simp only [State.NextWrite]
  decide

/-- The coherent state after the CONSTRUCT of a fixture whose polynomial is well-formed in Normal form. -/
theorem fixture_coherent {m : SliceMax} {cfg : BitVec 5} {poly : Dword}
    (hf : ({ idle m with cfg := cfg, poly := poly } : State).polyFormat = some .normal)
    (hd : definingBitSet .normal ({ idle m with cfg := cfg, poly := poly } : State).polyW = true) :
    (fixture m cfg poly).Inv where
  pendingAccepted := by intro i h; exact absurd h (by simp [fixture, constructFrom, idle, State.resetOf])
  validConstructed := fun _ => ⟨.normal, hf, hd, rfl, rfl, rfl⟩
  invalidUnspecified := by intro h; exact absurd h (by simp [fixture, constructFrom])
  passDone := by intro h; exact absurd h (by simp [fixture, constructFrom, idle, State.resetOf])
  doneValid := fun _ => rfl

/-- CRC-32 on the widest instance is coherent and valid. -/
theorem witness_coherent : (fixture .sixteen 0x06 0x04C11DB7).Inv ∧ (fixture .sixteen 0x06 0x04C11DB7).valid = true :=
  ⟨fixture_coherent rfl (by decide), rfl⟩

/-- The same with a command pending. -/
theorem witness_coherent_pending :
    ({ fixture .sixteen 0x06 0x04C11DB7 with pending := some (.updS16 16) } : State).Inv where
  pendingAccepted := by
    intro i h
    cases h
    decide
  validConstructed := fun _ => ⟨.normal, rfl, by decide, rfl, rfl, rfl⟩
  invalidUnspecified := by intro h; exact absurd h (by simp [fixture, constructFrom])
  passDone := by intro h; exact absurd h (by simp [fixture, constructFrom, idle, State.resetOf])
  doneValid := fun _ => rfl

theorem witness_ConstructRefusesIllFormedPolynomials :
    ({ hostDoes (wr4 4 1) with cfg := 0x18 } : State).NextWrite 0x004 4 0x00000001#32 [] ∧
    ({ hostDoes (wr4 4 1) with cfg := 0x18 } : State).pending = none ∧
    ({ hostDoes (wr4 4 1) with cfg := 0x18 } : State).cfg.extractLsb' 3 2 = 3 ∧
    ({ hostDoes (wr4 4 1) with cfg := 0x13, poly := 0x7FFFFFFFFFFFFFFF } : State).cfg.extractLsb' 3 2 ≠ 3 ∧
    ({ hostDoes (wr4 4 1) with cfg := 0x13, poly := 0x7FFFFFFFFFFFFFFF } : State).definingBitOfPoly = false := by
  simp only [State.NextWrite]
  decide

/-- The third clause's premises: the reset state is coherent and its POLY ill-formed. -/
theorem witness_ConstructRefuses_coherent :
    (hostDoes (wr4 4 1)).Inv ∧ (hostDoes (wr4 4 1)).definingBitOfPoly = false where
  left := ⟨by simp [hostDoes, idle, State.resetOf], by simp [hostDoes, idle, State.resetOf], fun _ => rfl,
    by simp [hostDoes, idle, State.resetOf], by simp [hostDoes, idle, State.resetOf]⟩
  right := by decide

theorem witness_ErrorBitsOverAStep : (next? (step (hostDoes [.idle]))) = some (hostDoes []) := by decide

theorem witness_ResetFromAnyState :
    (waiting .construct [.reset]).host = .reset :: [] ∧ (waiting .construct [.reset]).pending = some .construct := ⟨rfl, rfl⟩

theorem witness_CfgWriteInvalidates :
    (hostDoes (wr4 0 0xFFFFFFFF)).NextWrite 0x000 4 0xFFFFFFFF [] ∧ (hostDoes (wr4 0 0xFFFFFFFF)).pending = none := ⟨rfl, rfl⟩

theorem witness_PolyWriteInvalidates :
    (hostDoes (wr4 0x10 7)).pending = none ∧ (hostDoes (wr4 0x10 7)).NextWrite 0x010 4 7 [] ∧
    (hostDoes (wr4 0x14 7)).NextWrite 0x014 4 7 [] := ⟨rfl, rfl, rfl⟩

theorem witness_DataWritesStoreTheWord :
    (hostDoes []).pending = none ∧ (hostDoes (wr4 0x18 1)).NextWrite 0x018 4 1 [] ∧
    (hostDoes (wr4 0x1C 1)).NextWrite 0x01C 4 1 [] ∧ (hostDoes (wr4 0x20 1)).NextWrite 0x020 4 1 [] ∧
    (hostDoes (wr4 0x24 1)).NextWrite 0x024 4 1 [] ∧ (hostDoes (wr4 0x28 1)).NextWrite 0x028 4 1 [] ∧
    (hostDoes (wr4 0x2C 1)).NextWrite 0x02C 4 1 [] ∧ (hostDoes (wr4 0x30 1)).NextWrite 0x030 4 1 [] ∧
    (hostDoes (wr4 0x34 1)).NextWrite 0x034 4 1 [] ∧ (hostDoes (wr4 0x50 1)).NextWrite 0x050 4 1 [] ∧
    (hostDoes (wr4 0x54 1)).NextWrite 0x054 4 1 [] ∧ (hostDoes (wr4 0x58 1)).NextWrite 0x058 4 1 [] ∧
    (hostDoes (wr4 0x5C 1)).NextWrite 0x05C 4 1 [] :=
  ⟨rfl, rfl, rfl, rfl, rfl, rfl, rfl, rfl, rfl, rfl, rfl, rfl, rfl⟩

theorem witness_StatusWriteClearsErrors :
    (hostDoes (wr4 8 0x00007F00)).NextWrite 0x008 4 0x00007F00 [] ∧ (hostDoes (wr4 8 0x00007F00)).pending = none := ⟨rfl, rfl⟩

/-- CMD, the first and the last reserved offset, and the first and the last read-only register. -/
theorem witness_ReservedAndReadOnlyOffsets :
    (hostDoes (rd4 4)).NextRead 4 4 [] ∧ (waiting .nop (rd4 0x060)).NextRead 0x060 4 [] ∧
    (waiting .nop (rd4 0x060)).HostsTurn ∧ (hostDoes (rd4 0xFFC)).NextRead 0xFFC 4 [] ∧
    (0x060 ≤ 0x060 ∧ 0xFFC < 4096 ∧ 0xFFC % 4 = 0) ∧
    (hostDoes (wr4 0x00C 1)).NextWrite 0x00C 4 1 [] ∧ (hostDoes (wr4 0x04C 1)).NextWrite 0x04C 4 1 [] ∧
    (hostDoes (wr4 0x060 1)).NextWrite 0x060 4 1 [] ∧ (hostDoes (wr4 0xFFC 1)).NextWrite 0xFFC 4 1 [] ∧
    (hostDoes (wr4 0xFFC 1)).pending = none := by
  simp only [State.NextWrite, State.NextRead, State.HostsTurn]
  decide

/-- The first and the last register of the map. -/
theorem witness_RegisterMapReads :
    (hostDoes (rd4 0)).pending = none ∧ (hostDoes (rd4 0)).NextRead 0x000 4 [] ∧
    (hostDoes (rd4 0x5C)).NextRead 0x05C 4 [] := ⟨rfl, rfl, rfl⟩

theorem witness_StatusAndErrorBitLayout :
    (hostDoes (rd4 8)).pending = none ∧ (hostDoes (rd4 8)).NextRead 0x008 4 [] := ⟨rfl, rfl⟩

theorem witness_CapIsConstant :
    (waiting .nop (rd4 0x00C)).HostsTurn ∧ (waiting .nop (rd4 0x00C)).NextRead 0x00C 4 [] ∧
    (hostDoes (wr4 0x00C 0xFFFFFFFF)).pending = none ∧
    (hostDoes (wr4 0x00C 0xFFFFFFFF)).NextWrite 0x00C 4 0xFFFFFFFF [] ∧
    next? (step (hostDoes [.idle])) = some (hostDoes []) := by
  simp only [State.NextWrite, State.NextRead, State.HostsTurn]
  decide

/-- A register of each group, with the commands that make STATUS bits unspecified and one that does not. -/
theorem witness_ReadsWhileBusy :
    (waiting .init (rd4 0x030)).pending = some .init ∧ (waiting .init (rd4 0x030)).countdown ≠ 0 ∧
    (waiting .init (rd4 0x030)).NextRead (Reg.offset .crcLo) 4 [] ∧
    (waiting .init (rd4 0x000)).NextRead (Reg.offset .cfg) 4 [] ∧
    (waiting .init (rd4 0x05C)).NextRead (Reg.offset .din3) 4 [] ∧
    (waiting .construct (rd4 0x008)).NextRead (Reg.offset .status) 4 [] ∧
    (waiting (.selftest .bit) (rd4 0x008)).NextRead (Reg.offset .status) 4 [] := by
  simp only [State.NextRead]
  decide

theorem witness_WrittenRegistersReadBack :
    (hostDoes (wr4 0 0xFFFFFFFF ++ rd4 0)).pending = none ∧
    (hostDoes (wr4 0 0xFFFFFFFF ++ rd4 0)).host =
      HostProgram.wr ⟨.sixteen, 0, false⟩ .cfg 0xFFFFFFFF ++ HostProgram.rd ⟨.sixteen, 0, false⟩ .cfg ++ [] ∧
    (hostDoes (wr4 0x5C 9 ++ rd4 0x5C)).host =
      HostProgram.wr ⟨.sixteen, 0, false⟩ .din3 9 ++ HostProgram.rd ⟨.sixteen, 0, false⟩ .din3 ++ [] := by decide

theorem witness_InputBytesAreTheWindow : (0 : BitVec 5).toNat ≤ 16 ∧ (16 : BitVec 5).toNat ≤ 16 := by decide

/-- No byte, one byte and sixteen bytes. -/
theorem witness_LoadDinPresentsTheBytes :
    (hostDoes []).pending = none ∧ (hostDoes []).host = HostProgram.loadDin ⟨.sixteen, 0, false⟩ [] ++ [] ∧
    (hostDoes (wr4 0x50 0x41)).host = HostProgram.loadDin ⟨.sixteen, 0, false⟩ [0x41] ++ [] ∧
    (List.replicate 16 (0 : Byte)).length ≤ 16 := by decide

/-- The commands' own words as the host's next action, and each command pending. -/
theorem witness_NopRule :
    (hostDoes (wr4 4 0)).NextWrite 0x004 4 0 [] ∧ (hostDoes (wr4 4 0)).pending = none ∧
    (waiting .nop (wr4 4 0)).NextWrite 0x004 4 0 [] ∧ (waiting .nop (wr4 4 0)).pending ≠ none ∧
    (waiting .nop (wr4 4 0)).countdown ≠ 0 ∧ (0x10 % 16 = 0x0 ∧ 0x10 / 16 ≠ 0) ∧ (holding .nop).pending = some .nop := by
  simp only [State.NextWrite]
  decide

theorem witness_ConstructRule :
    (hostDoes (wr4 4 1)).NextWrite 0x004 4 1 [] ∧ (hostDoes (wr4 4 1)).pending = none ∧
    constructCheck (hostDoes (wr4 4 1)) = some .poly ∧
    constructCheck { hostDoes (wr4 4 1) with cfg := 0x18 } = some .pfmt ∧
    constructCheck { hostDoes (wr4 4 1) with poly := 1 } = none ∧
    (waiting .nop (wr4 4 1)).pending ≠ none ∧ (waiting .nop (wr4 4 1)).countdown ≠ 0 ∧
    (0x11 % 16 = 0x1 ∧ 0x11 / 16 ≠ 0) ∧ (holding .construct).pending = some .construct ∧
    (holding .construct).polyFormat = some .normal := by
  simp only [State.NextWrite]
  decide

/-- For the commands that need VALID: the issue before and after CONSTRUCT, and the completion. -/
theorem witness_InitRule :
    (hostDoes (wr4 4 2)).NextWrite 0x004 4 2 [] ∧ (hostDoes (wr4 4 2)).pending = none ∧
    validCheck (hostDoes (wr4 4 2)) = some .nocfg ∧ validCheck { hostDoes (wr4 4 2) with valid := true } = none ∧
    (0x12 % 16 = 0x2 ∧ 0x12 / 16 ≠ 0) ∧ (holding .init).pending = some .init := by
  simp only [State.NextWrite]
  decide

theorem witness_FinalRule :
    (hostDoes (wr4 4 8)).NextWrite 0x004 4 8 [] ∧ (hostDoes (wr4 4 8)).pending = none ∧
    validCheck (hostDoes (wr4 4 8)) = some .nocfg ∧ validCheck { hostDoes (wr4 4 8) with valid := true } = none ∧
    (0x18 % 16 = 0x8 ∧ 0x18 / 16 ≠ 0) ∧ (holding .finalize).pending = some .finalize := by
  simp only [State.NextWrite]
  decide

/-- SELFTEST of an absent engine, before CONSTRUCT and after it; each engine pending. -/
theorem witness_SelftestRule :
    (hostDoes (wr4 4 0x49)).NextWrite 0x004 4 (encode (.selftest .s16)) [] ∧ (hostDoes (wr4 4 0x49)).pending = none ∧
    (Engine.s8 = .s8 ∧ (idle .four).sliceMax.kMax < 8) ∧ (Engine.s16 = .s16 ∧ (idle .eight).sliceMax.kMax < 16) ∧
    (0x89 % 16 = 0x9 ∧ 0x89 / 128 ≠ 0) ∧ (0x59 % 16 = 0x9 ∧ 5 ≤ 0x59 / 16 % 8) ∧
    (holding (.selftest .bit)).pending = some (.selftest .bit) ∧
    (holding (.selftest .s16)).pending = some (.selftest .s16) := by
  simp only [State.NextWrite]
  decide

/-- LEN 17 and LEN 16, before CONSTRUCT and after it; LEN 0 and LEN 16 pending. -/
theorem witness_UpdBitRule :
    (hostDoes (wr4 4 0x103)).NextWrite 0x004 4 (encode (.updBit 16)) [] ∧ (hostDoes (wr4 4 0x103)).pending = none ∧
    updateCheck 17 (hostDoes []) = some .arg ∧ updateCheck 16 (hostDoes []) = some .nocfg ∧
    updateCheck 16 { hostDoes [] with valid := true } = none ∧ (0x203 % 16 = 0x3 ∧ 0x203 / 512 ≠ 0) ∧
    (holding (.updBit 0)).pending = some (.updBit 0) ∧ (holding (.updBit 16)).pending = some (.updBit 16) := by
  simp only [State.NextWrite]
  decide

theorem witness_UpdTblRule :
    (hostDoes (wr4 4 0x104)).NextWrite 0x004 4 (encode (.updTbl 16)) [] ∧ (hostDoes (wr4 4 0x104)).pending = none ∧
    (0x204 % 16 = 0x4 ∧ 0x204 / 512 ≠ 0) ∧
    (holding (.updTbl 0)).pending = some (.updTbl 0) ∧ (holding (.updTbl 16)).pending = some (.updTbl 16) := by
  simp only [State.NextWrite]
  decide

theorem witness_UpdS4Rule :
    (hostDoes (wr4 4 0x105)).NextWrite 0x004 4 (encode (.updS4 16)) [] ∧ (hostDoes (wr4 4 0x105)).pending = none ∧
    (0x205 % 16 = 0x5 ∧ 0x205 / 512 ≠ 0) ∧
    (holding (.updS4 0)).pending = some (.updS4 0) ∧ (holding (.updS4 16)).pending = some (.updS4 16) := by
  simp only [State.NextWrite]
  decide

theorem witness_UpdS8Rule :
    (hostDoes (wr4 4 0x106)).NextWrite 0x004 4 (encode (.updS8 16)) [] ∧ (hostDoes (wr4 4 0x106)).pending = none ∧
    ((idle .four).sliceMax.kMax < 8 ∧ 8 ≤ (idle .eight).sliceMax.kMax) ∧ (0x206 % 16 = 0x6 ∧ 0x206 / 512 ≠ 0) ∧
    (holding (.updS8 0)).pending = some (.updS8 0) ∧ (holding (.updS8 16)).pending = some (.updS8 16) := by
  simp only [State.NextWrite]
  decide

theorem witness_UpdS16Rule :
    (hostDoes (wr4 4 0x107)).NextWrite 0x004 4 (encode (.updS16 16)) [] ∧ (hostDoes (wr4 4 0x107)).pending = none ∧
    ((idle .eight).sliceMax.kMax < 16 ∧ (idle .sixteen).sliceMax.kMax = 16) ∧ (0x207 % 16 = 0x7 ∧ 0x207 / 512 ≠ 0) ∧
    (holding (.updS16 0)).pending = some (.updS16 0) ∧ (holding (.updS16 16)).pending = some (.updS16 16) := by
  simp only [State.NextWrite]
  decide

/-- The last legal TK and the first illegal one of an instance; the coherent state is `witness_coherent`. -/
theorem witness_TblReadRule :
    (hostDoes (wr4 4 0x000FFF0A)).NextWrite 0x004 4 (encode (.tblRead 15 255)) [] ∧
    (hostDoes (wr4 4 0x000FFF0A)).pending = none ∧
    ((3 : BitVec 4).toNat < (idle .four).sliceMax.kMax ∧ ¬ (4 : BitVec 4).toNat < (idle .four).sliceMax.kMax) ∧
    (0x10000A % 16 = 0xA ∧ 0x10000A / 2 ^ 20 ≠ 0) ∧ (0x1A % 16 = 0xA ∧ 0x1A / 16 % 16 ≠ 0) ∧
    (holding (.tblRead 15 255)).pending = some (.tblRead 15 255) := by
  simp only [State.NextWrite]
  decide

/-- The first and the last table of an instance; n for the second clause and k for the third. -/
theorem witness_ChainedTablesAreBitwise : 0 < SliceMax.kMax .four ∧ 15 < SliceMax.kMax .sixteen ∧ 15 < 16 ∧ 1 ≤ 15 := by
  decide

theorem witness_TableEntriesAreLinear : 0 < SliceMax.kMax .four ∧ 15 < SliceMax.kMax .sixteen := by decide

/-- The base table as a function is the function itself. -/
theorem witness_TableStepIsBitStep :
    ∀ v, (fun v => bitStep false 0x1021#16 0 v) v = bitStep false 0x1021#16 0 v := fun _ => rfl

/-- Tables that hold what the chained tables hold, for 16 bytes and for 4. -/
theorem witness_SliceStepIsBitwise :
    (16 ∈ [4, 8, 16] ∧ 4 ∈ [4, 8, 16]) ∧ (List.replicate 16 (0x31 : Byte)).length = 16 ∧
    ∀ k v, k < 16 → (fun k v => updBit true 0x04C11DB7#32 0 (v :: List.replicate k 0)) k v =
      updBit true 0x04C11DB7#32 0 (v :: List.replicate k 0) := ⟨by decide, by decide, fun _ _ _ => rfl⟩

/-- The coherent state of `witness_coherent_pending`. -/
theorem witness_EveryUpdateIsTheOracle :
    ({ fixture .sixteen 0x06 0x04C11DB7 with pending := some (.updS16 16) } : State).Inv ∧
    Instr.updS16 16 ∈ [.updBit 16, .updTbl 16, .updS4 16, .updS8 16, .updS16 16] ∧ (16 : BitVec 5) ≠ 0 :=
  ⟨witness_coherent_pending, by decide, by decide⟩

theorem witness_EnginesAgree :
    (fixture .sixteen 0x06 0x04C11DB7).Inv ∧ (fixture .sixteen 0x06 0x04C11DB7).valid = true ∧
    Engine.s16.present (fixture .sixteen 0x06 0x04C11DB7).sliceMax = true ∧
    Engine.bit.present (fixture .sixteen 0x06 0x04C11DB7).sliceMax = true :=
  ⟨witness_coherent.1, witness_coherent.2, rfl, rfl⟩

theorem witness_StreamingAcrossEngines :
    (fixture .sixteen 0x06 0x04C11DB7).Inv ∧ (fixture .sixteen 0x06 0x04C11DB7).valid = true ∧
    Engine.s8.present (fixture .sixteen 0x06 0x04C11DB7).sliceMax = true ∧
    Engine.tbl.present (fixture .sixteen 0x06 0x04C11DB7).sliceMax = true :=
  ⟨witness_coherent.1, witness_coherent.2, rfl, rfl⟩

theorem witness_RepresentationsRoundTrip :
    definingBitSet .normal 0x07#8 = true ∧ definingBitSet .reverse 0xE0#8 = true ∧ definingBitSet .koopman 0x83#8 = true ∧
    (0x42F0E1EBA9EA3693#64).getLsbD 0 = true := by decide

theorem witness_BitsAboveWidthAreIgnored :
    (holding .init).pending = some .init ∧
    (0xFFFFFFFFFFFFFF00 : Dword).setWidth (holding .init).W = (holding .init).init.setWidth (holding .init).W := by decide

/-- A coherent state whose step answers a next state. -/
theorem witness_EveryStepKeepsCoherence :
    (hostDoes (wr4 4 1)).Inv ∧ (next? (step (hostDoes (wr4 4 1)))).map (·.errs) = some 0b1000000 :=
  ⟨witness_ConstructRefuses_coherent.1, by decide⟩

theorem witness_PendingInputsAreStable :
    (waiting .nop (wr4 0 6)).pending = some .nop ∧
    (next? (step (waiting .nop (wr4 0 6)))).map (·.pending) = some (some .nop) := by decide

/-- VALID set, VALID cleared, ST_DONE and ST_PASS set and cleared, each by a step. -/
theorem witness_WhoChangesTheFlags :
    (next? (step (holding .construct))).map (·.valid) = some true ∧
    (next? (step { hostDoes (wr4 0 0) with valid := true, stDone := true, stPass := true })).map
      (fun t => (t.valid, t.stDone, t.stPass)) = some (false, false, false) ∧
    (next? (step (holding (.selftest .bit)))).map (fun t => (t.stDone, t.stPass)) = some (true, true) := by
  decide +kernel

/-- Each of CRC, RESULT, PNORM and the tables changed by a step that is no reset. -/
theorem witness_WhoWritesTheResults :
    (hostDoes (wr4 0x30 1)).resetNext = false ∧ (next? (step (hostDoes (wr4 0x30 1)))).map (·.crc) = some 1 ∧
    (next? (step { holding .finalize with crc := 5 })).map (·.result) = some 5 ∧
    (next? (step { holding .construct with poly := 7 })).map (·.pnorm) = some 7 ∧
    (next? (step { hostDoes (wr4 0 0) with tables := .built [] })).map (·.tables) = some .unspecified := by
  decide +kernel

end Sys2Proof.Tests
end

section
/-! Proofs, part 1. What a completion, a register write and a step can do to the block, in the form the statements
about its state cite; and the invariant of a coherent state. -/

namespace Sys2Proof.Machine

/-! ## The shape of each operation's result -/

/-- The registers whose accepted write invalidates the parameter set (10_state.md R24, R25). -/
def invalidatingRegs : List Reg := [.cfg, .polyLo, .polyHi]

theorem offset_of_mem_invalidatingRegs {r : Reg} (h : r ∈ invalidatingRegs) : r.offset ∈ [0x000, 0x010, 0x014] := by
  simp only [invalidatingRegs, List.mem_cons, List.not_mem_nil, or_false] at h
  obtain rfl | rfl | rfl := h <;> decide

/-- The commands whose completion writes CRC and nothing else (10_state.md R28). -/
def writesCrc (i : Instr) : Prop :=
  i = .init ∨ ∃ len : BitVec 5, i ∈ [.updBit len, .updTbl len, .updS4 len, .updS8 len, .updS16 len]

/-- An update command changes CRC or nothing. -/
theorem updateEffect_eq (len : BitVec 5) (s : State) (upd : BitVec s.W → List Byte → BitVec s.W) :
    ∃ c, updateEffect len s upd = { s with crc := c } := by
  unfold updateEffect
  split
  · exact ⟨s.crc, rfl⟩
  · exact ⟨_, rfl⟩

/-- All a completion can do to the block, before the command leaves PENDING. -/
theorem effectOf_cases (i : Instr) (s : State) :
    effectOf i s = s ∨
    (writesCrc i ∧ ∃ c, effectOf i s = { s with crc := c }) ∨
    ((i = .finalize ∨ ∃ k v, i = .tblRead k v) ∧ ∃ r, effectOf i s = { s with result := r }) ∨
    (∃ e, i = .selftest e ∧ ∃ r b, effectOf i s = { s with result := r, stPass := b, stDone := true }) ∨
    (i = .construct ∧ ∃ f, s.polyFormat = some f ∧ effectOf i s = constructFrom f s) := by
  have update (len : BitVec 5) (upd : BitVec s.W → List Byte → BitVec s.W)
      (hi : i ∈ [.updBit len, .updTbl len, .updS4 len, .updS8 len, .updS16 len])
      (he : effectOf i s = updateEffect len s upd) :
      writesCrc i ∧ ∃ c, effectOf i s = { s with crc := c } :=
    ⟨.inr ⟨len, hi⟩, he ▸ updateEffect_eq len s upd⟩
  cases i with
  | nop | reservedB | reservedC | reservedD | reservedE | reservedF => exact .inl rfl
  | init => exact .inr (.inl ⟨.inl rfl, _, rfl⟩)
  | updBit len | updTbl len | updS4 len | updS8 len | updS16 len =>
    exact .inr (.inl (update len _ (by simp) rfl))
  | finalize => exact .inr (.inr (.inl ⟨.inl rfl, _, rfl⟩))
  | tblRead k v => exact .inr (.inr (.inl ⟨.inr ⟨k, v, rfl⟩, _, rfl⟩))
  | selftest e => exact .inr (.inr (.inr (.inl ⟨e, rfl, _, _, rfl⟩)))
  | construct =>
    cases hf : s.polyFormat with
    | none => exact .inl (by simp [effectOf, constructEffect, hf])
    | some f => exact .inr (.inr (.inr (.inr ⟨rfl, f, rfl, by simp [effectOf, constructEffect, hf]⟩)))

/-- All an accepted register write can do: invalidate the parameter set with a new CFG or POLY, store a new CRC, or touch
only the other parameters, the input window and the error bits. -/
theorem writeReg_cases (s : State) (r : Reg) (v : Word) :
    (r ∈ invalidatingRegs ∧ ∃ c p, s.writeReg r v = { s with cfg := c, poly := p }.invalidate) ∨
    (r ∈ [.crcLo, .crcHi] ∧ ∃ c, s.writeReg r v = { s with crc := c }) ∨
    ∃ a x k d0 d1 d2 d3 e, s.writeReg r v =
      { s with init := a, xorout := x, check := k, din0 := d0, din1 := d1, din2 := d2, din3 := d3, errs := e } := by
  cases r with
  | cfg | polyLo | polyHi => exact .inl ⟨by decide, _, _, rfl⟩
  | crcLo | crcHi => exact .inr (.inl ⟨by decide, _, rfl⟩)
  | _ => exact .inr (.inr ⟨_, _, _, _, _, _, _, _, rfl⟩)

/-- An issue changes no register: it raises an error or fills PENDING. -/
theorem issue_keeps (i : Instr) (s : State) : Keeps s (issue i s) := by
  rcases issue_cases i s with ⟨e, he⟩ | ⟨_, _, he⟩ <;> rw [he] <;> simp [Keeps]

/-- `step_cases` for statements about the registers and flags alone: issues, reads, refused and dropped accesses and idle
turns are one case, in which all of them are kept. -/
theorem step_register_cases {s t : State} (h : step s = .next t) :
    (∃ i, s.pending = some i ∧ t = (effectOf i s).retire) ∨
    (s.resetNext = true ∧ ∃ rest, t = State.resetBlock { s with host := rest }) ∨
    (s.pending = none ∧ ∃ r v rest, s.NextWrite r.offset 4 v rest ∧ t = (s.answered rest none false).writeReg r v) ∨
    Keeps s t := by
  rcases step_cases h with ⟨i, hp, _, _, rfl⟩ | ⟨rest, hh, rfl⟩ | ⟨_, _, hk, _⟩ | ⟨_, r, v, rest, hp, _, hw, rfl⟩ |
    ⟨_, i, v, rest, _, _, _, rfl⟩
  · exact .inl ⟨i, hp, rfl⟩
  · exact .inr (.inl ⟨resetNext_of_host hh, rest, rfl⟩)
  · exact .inr (.inr (.inr hk))
  · exact .inr (.inr (.inl ⟨hp, r, v, rest, hw, rfl⟩))
  · exact .inr (.inr (.inr (issue_keeps i (s.answered rest none false))))

/-! ## The parameter set -/

/-- The two states hold the same parameter set: everything that VALID speaks of, and that a command's checks read. -/
structure SameParameterSet (s t : State) : Prop where
  params : t.params = s.params
  cfg : t.cfg = s.cfg
  poly : t.poly = s.poly
  pnorm : t.pnorm = s.pnorm
  prev : t.prev = s.prev
  valid : t.valid = s.valid
  tables : t.tables = s.tables

theorem Keeps.sameParameterSet {s t : State} (h : Keeps s t) : SameParameterSet s t := by
  obtain ⟨hparams, hcfg, hpoly, -, -, -, -, -, hpnorm, hprev, -, -, -, -, hvalid, -, -, htables⟩ := h
  exact ⟨hparams, hcfg, hpoly, hpnorm, hprev, hvalid, htables⟩

/-- The seven fields are all that the checks of a command and `State.Constructed` read. -/
theorem SameParameterSet.reads {s t : State} (h : SameParameterSet s t) :
    (∀ i, commandError i t = commandError i s) ∧ ∀ f, s.Constructed f → t.Constructed f := by
  obtain ⟨hparams, hcfg, hpoly, hpnorm, hprev, hvalid, htables⟩ := h
  cases s
  cases t
  dsimp only at hparams hcfg hpoly hpnorm hprev hvalid htables
  subst hparams hcfg hpoly hpnorm hprev hvalid htables
  exact ⟨fun _ => rfl, fun _ hc => ⟨hc.format, hc.definingBit, hc.pnormIs, hc.prevIs, hc.tablesAre⟩⟩

/-- A coherent state stays so while the parameter set stands, whatever becomes of PENDING and the self-test flags within
their own clauses. -/
theorem State.Inv.of_sameParameterSet {s t : State} (hs : s.Inv) (h : SameParameterSet s t)
    (hpending : ∀ i, t.pending = some i → commandError i s = none) (hpass : t.stPass = true → t.stDone = true)
    (hdone : t.stDone = true → s.valid = true) : t.Inv where
  pendingAccepted i hi := (h.reads.1 i).trans (hpending i hi)
  validConstructed hv := (hs.validConstructed (h.valid ▸ hv)).imp h.reads.2
  invalidUnspecified hv := h.tables.trans (hs.invalidUnspecified (h.valid ▸ hv))
  passDone := hpass
  doneValid hd := h.valid.trans (hdone hd)

/-- A state with nothing pending and no valid parameter set is coherent if its flags and tables say so. -/
theorem State.Inv.of_invalid {t : State} (hpending : t.pending = none) (hvalid : t.valid = false)
    (hpass : t.stPass = false) (hdone : t.stDone = false) (htables : t.tables = .unspecified) : t.Inv where
  pendingAccepted i hi := by simp [hpending] at hi
  validConstructed hv := by simp [hvalid] at hv
  invalidUnspecified _ := htables
  passDone hp := by simp [hpass] at hp
  doneValid hd := by simp [hdone] at hd

theorem constructError_eq_none {s : State} {f : PolyFormat} (hf : s.polyFormat = some f)
    (h : constructError s = none) : definingBitSet f s.polyW = true := by
  simpa [constructError, hf] using h

/-- An accepted CONSTRUCT passed its own check. -/
theorem constructError_of_accepted {s : State} (h : commandError .construct s = none) : constructError s = none := by
  simpa [commandError, Instr.present, Instr.operandsLegal, needsValid] using h

/-- An accepted command that requires VALID found it set (60_exceptions.md R206). -/
theorem valid_of_accepted {s : State} {i : Instr} (hi : needsValid i = true) (h : commandError i s = none) :
    s.valid = true := by
  cases hv : s.valid with
  | true => rfl
  | false =>
    unfold commandError at h
    split at h
    · simp at h
    · split at h <;> simp [hi, hv] at h

/-! ## Every kind of step keeps a coherent state coherent -/

/-- A completing CONSTRUCT leaves a constructed parameter set. -/
theorem constructFrom_constructed {s : State} {f : PolyFormat} (hf : s.polyFormat = some f)
    (hd : definingBitSet f s.polyW = true) : (constructFrom f s).retire.Constructed f :=
  ⟨hf, hd, rfl, rfl, rfl⟩

theorem completion_keeps_inv {s : State} {i : Instr} (hs : s.Inv) (hi : s.pending = some i) :
    (effectOf i s).retire.Inv := by
  have haccepted := hs.pendingAccepted i hi
  rcases effectOf_cases i s with he | ⟨_, c, he⟩ | ⟨_, r, he⟩ | ⟨e, rfl, r, b, he⟩ | ⟨rfl, f, hf, he⟩ <;> rw [he]
  · exact hs.of_sameParameterSet ⟨rfl, rfl, rfl, rfl, rfl, rfl, rfl⟩ nofun hs.passDone hs.doneValid
  · exact hs.of_sameParameterSet ⟨rfl, rfl, rfl, rfl, rfl, rfl, rfl⟩ nofun hs.passDone hs.doneValid
  · exact hs.of_sameParameterSet ⟨rfl, rfl, rfl, rfl, rfl, rfl, rfl⟩ nofun hs.passDone hs.doneValid
  · exact hs.of_sameParameterSet ⟨rfl, rfl, rfl, rfl, rfl, rfl, rfl⟩ nofun (fun _ => rfl)
      (fun _ => valid_of_accepted rfl haccepted)
  · have hdef := constructError_eq_none hf (constructError_of_accepted haccepted)
    exact ⟨nofun, fun _ => ⟨f, constructFrom_constructed hf hdef⟩, nofun, hs.passDone, fun _ => rfl⟩

theorem writeReg_keeps_inv {s : State} (hs : s.Inv) (hp : s.pending = none) (r : Reg) (v : Word) (rest : List HostAction) :
    ((s.answered rest none false).writeReg r v).Inv := by
  have hnone : ∀ i, s.pending = some i → commandError i s = none := hs.pendingAccepted
  rcases writeReg_cases (s.answered rest none false) r v with ⟨_, c, p, he⟩ | ⟨_, c, he⟩ |
    ⟨a, x, k, d0, d1, d2, d3, e, he⟩ <;> rw [he]
  · exact .of_invalid hp rfl rfl rfl rfl
  · exact hs.of_sameParameterSet ⟨rfl, rfl, rfl, rfl, rfl, rfl, rfl⟩ hnone hs.passDone hs.doneValid
  · exact hs.of_sameParameterSet ⟨rfl, rfl, rfl, rfl, rfl, rfl, rfl⟩ hnone hs.passDone hs.doneValid

/-- An issue fills PENDING only with a command that passed its checks (60_exceptions.md R201). -/
theorem issue_keeps_inv {s : State} (hs : s.Inv) (i : Instr) (rest : List HostAction) :
    (issue i (s.answered rest none false)).Inv := by
  rcases issue_cases i (s.answered rest none false) with ⟨e, he⟩ | ⟨_, hnone, he⟩ <;> rw [he]
  · exact hs.of_sameParameterSet ⟨rfl, rfl, rfl, rfl, rfl, rfl, rfl⟩ hs.pendingAccepted hs.passDone hs.doneValid
  · refine hs.of_sameParameterSet ⟨rfl, rfl, rfl, rfl, rfl, rfl, rfl⟩ (fun j hj => ?_) hs.passDone hs.doneValid
    obtain rfl : i = j := by simpa using hj
    exact hnone

theorem keeps_inv {s t : State} (hs : s.Inv) (h : Keeps s t) (hp : t.pending = s.pending) : t.Inv := by
  have hset := h.sameParameterSet
  obtain ⟨-, -, -, -, -, -, -, -, -, -, -, -, -, -, -, hdone, hpass, -⟩ := h
  refine hs.of_sameParameterSet hset ?_ ?_ ?_
  · rw [hp]
    exact hs.pendingAccepted
  · rw [hpass, hdone]
    exact hs.passDone
  · rw [hdone]
    exact hs.doneValid

/-- Settles O56: each of the five kinds of step keeps the clauses of `State.Inv`; a completing CONSTRUCT establishes
the promise of VALID, because its command passed the checks that make POLY well-formed. -/
theorem everyStepKeepsCoherence : Obligations.EveryStepKeepsCoherence := by
  unfold Obligations.EveryStepKeepsCoherence
  intro s t hs h
  rcases step_cases h with ⟨i, hi, _, _, rfl⟩ | ⟨rest, _, rfl⟩ | ⟨_, _, hk, hp, _⟩ | ⟨_, r, v, rest, hp, _, _, rfl⟩ |
    ⟨_, i, v, rest, _, _, _, rfl⟩
  · exact completion_keeps_inv hs hi
  · exact .of_invalid rfl rfl rfl rfl rfl
  · exact keeps_inv hs hk hp
  · exact writeReg_keeps_inv hs hp r v rest
  · exact issue_keeps_inv hs i rest

end Sys2Proof.Machine
end

section
/-! Proofs, part 2. The register window: what one legal access does, register by register. -/

namespace Sys2Proof.Machine

/-! ## One legal access -/

/-- A legal write to a register other than CMD, with nothing pending: the register's own effect, and nothing else. -/
theorem step_writeReg {s : State} {r : Reg} {v : Word} {rest : List HostAction} (hp : s.pending = none)
    (hw : s.NextWrite r.offset 4 v rest) (hr : r ≠ .cmd) :
    step s = .next ((s.answered rest none false).writeReg r v) := by
  have hturn : nextAction s = State.busWrite { s with host := rest } r.offset 4 v :=
    (nextAction_idle hp).trans (hostTurn_write hw r.offset_lt)
  exact step_of_done (hturn.trans (busWrite_reg hp hr))

theorem tick_idle {s : State} (hp : s.pending = none) : s.tick = s := if_pos hp

theorem tick_busy {s : State} (hp : s.pending ≠ none) : s.tick = s.elapsed := if_neg hp

/-- A cycle touches the countdown alone. -/
theorem tick_eq (s : State) :
    s.tick = { s with countdown := if s.pending = none then s.countdown else s.countdown - 1 } := by
  by_cases hp : s.pending = none
  · rw [tick_idle hp, if_pos hp]
  · rw [tick_busy hp, if_neg hp]
    rfl

/-- On its turn the host finds the block one cycle on. -/
theorem nextAction_hostsTurn {s : State} (ht : s.HostsTurn) (hr : s.resetNext = false) :
    nextAction s = hostTurn s.tick := by
  by_cases hp : s.pending = none
  · rw [tick_idle hp, nextAction_idle hp]
  · rw [tick_busy hp, nextAction_busy hp (ht.resolve_left hp) hr]

/-- A cycle that passes leaves the host's next read the same one. -/
theorem State.NextRead.tick {s : State} {off size : Nat} {rest : List HostAction} (h : s.NextRead off size rest) :
    s.tick.NextRead off size rest := by
  unfold State.tick
  split <;> exact h

/-- A legal read of a register, in terms of the register read. -/
theorem busRead_reg (s : State) (r : Reg) : s.busRead r.offset 4 =
    { s with draws := s.draws + s.drawsFor r, resp := ⟨some (s.observed r), false⟩ } := by
  rw [State.busRead, if_pos r.offset_legal, State.readLegal, Reg.ofOffset_offset]
  rfl

/-- A legal read of a register on the host's turn, busy or not, answers what the register is observed as; the block
changes only in the count of free values drawn. -/
theorem step_readReg {s : State} {r : Reg} {rest : List HostAction} (ht : s.HostsTurn)
    (h : s.NextRead r.offset 4 rest) :
    step s = .next (({ s with draws := s.draws + s.drawsFor r }.answered rest (some (s.observed r)) false).tick) := by
  have hturn := (nextAction_hostsTurn ht (resetNext_eq_false_of_read h)).trans (hostTurn_read h.tick r.offset_lt)
  rw [step_of_done hturn, busRead_reg, tick_eq, tick_eq]
  rfl

/-- With nothing pending every register is observed as it is stored. -/
theorem observed_idle {s : State} (hp : s.pending = none) (r : Reg) : s.observed r = s.stored r := by
  by_cases hr : r = .status
  · simp [hr, State.observed, State.observedStatus, State.selftestPending, hp]
  · simp [hr, State.observed, busy_eq_false.2 hp]

theorem drawsFor_idle {s : State} (hp : s.pending = none) (r : Reg) : s.drawsFor r = 0 := by
  simp [State.drawsFor, State.selftestPending, hp, busy_eq_false.2 hp]

/-- A legal read with nothing pending returns the stored word and changes nothing of the block (20_memory.md R57). -/
theorem step_readReg_idle {s : State} {r : Reg} {rest : List HostAction} (hp : s.pending = none)
    (h : s.NextRead r.offset 4 rest) : step s = .next (s.answered rest (some (s.stored r)) false) := by
  rw [step_readReg (.inl hp) h, observed_idle hp, drawsFor_idle hp]
  exact congrArg _ (tick_idle hp)

/-! ## The halves of a 64-bit register (10_state.md R22; 20_memory.md R56) -/

/-- A new low word replaces bits 31:0. -/
theorem joinWords_hi32 (d : Dword) (v : Word) :
    joinWords (hi32 d) v = (d &&& 0xFFFFFFFF00000000) ||| v.setWidth 64 := by
  have hmask : (0xFFFFFFFF00000000 : Dword) = BitVec.allOnes 32 ++ 0#32 := by decide
  rw [hmask]
  apply BitVec.eq_of_getLsbD_eq
  intro i hi
  simp only [joinWords, hi32, BitVec.getLsbD_append, BitVec.getLsbD_or, BitVec.getLsbD_and, BitVec.getLsbD_allOnes]
  by_cases h : i < 32
  · simp [h, hi]
  · simp [h, show i - 32 < 32 by omega, show 32 + (i - 32) = i by omega, BitVec.getLsbD_of_ge v i (by omega)]

/-- A new high word replaces bits 63:32. -/
theorem joinWords_lo32 (d : Dword) (v : Word) :
    joinWords v (lo32 d) = (d &&& 0x00000000FFFFFFFF) ||| (v.setWidth 64 <<< 32) := by
  have hmask : ((0x00000000FFFFFFFF : Nat) : Dword) = 0#32 ++ BitVec.allOnes 32 := by decide
  rw [hmask]
  apply BitVec.eq_of_getLsbD_eq
  intro i hi
  simp only [joinWords, lo32, BitVec.getLsbD_append, BitVec.getLsbD_or, BitVec.getLsbD_and, BitVec.getLsbD_allOnes]
  by_cases h : i < 32
  · simp [h]
  · simp [h, hi]

@[simp] theorem lo32_joinWords (hi lo : Word) : lo32 (joinWords hi lo) = lo := 
  BitVec.extractLsb'_append_eq_right
@[simp] theorem hi32_joinWords (hi lo : Word) : hi32 (joinWords hi lo) = hi := 
  BitVec.extractLsb'_append_eq_left

theorem lo32_eq_setWidth (d : Dword) : lo32 d = d.setWidth 32 :=
  (BitVec.setWidth_eq_extractLsb' (by decide)).symm
theorem hi32_eq_setWidth (d : Dword) : hi32 d = (d >>> 32).setWidth 32 := by
  rw [hi32, BitVec.setWidth_ushiftRight_eq_extractLsb]

/-! ## The statements about single accesses -/

/-- Settles O21: the CFG arm of `State.writeReg`, by the rule of one legal write. -/
theorem cfgWriteInvalidates : Obligations.CfgWriteInvalidates := by
  unfold Obligations.CfgWriteInvalidates
  intro s v rest hw hp
  refine ⟨.unspecified, (step_writeReg (r := .cfg) hp hw (by decide)).trans ?_⟩
  rw [State.writeReg, ← BitVec.setWidth_eq_extractLsb' (by decide)]
  rfl

/-- Settles O22: the two POLY arms of `State.writeReg`, with the halves of POLY written as masks. -/
theorem polyWriteInvalidates : Obligations.PolyWriteInvalidates := by
  unfold Obligations.PolyWriteInvalidates
  intro s v rest hp
  refine ⟨fun hw => (step_writeReg (r := .polyLo) hp hw (by decide)).trans ?_,
    fun hw => (step_writeReg (r := .polyHi) hp hw (by decide)).trans ?_⟩
  · rw [State.writeReg, joinWords_hi32]
    rfl
  · rw [State.writeReg, joinWords_lo32]
    rfl

/-- STATUS[14:8] of a word, as a shift. -/
theorem clearedErrors_eq (errs : BitVec 7) (v : Word) : clearedErrors errs v = errs &&& ~~~((v >>> 8).setWidth 7) := by
  rw [clearedErrors, BitVec.setWidth_ushiftRight_eq_extractLsb]

/-- Settles O24: the STATUS arm of `State.writeReg` touches the error bits alone. -/
theorem statusWriteClearsErrors : Obligations.StatusWriteClearsErrors := by
  unfold Obligations.StatusWriteClearsErrors
  intro s v rest hw hp
  rw [step_writeReg (r := .status) hp hw (by decide), State.writeReg, State.clearErrors, clearedErrors_eq]
  rfl

/-- The registers that O26 speaks of, in the order of the map: all but STATUS and CAP. -/
def mappedRegs : List Reg :=
  [.cfg, .cmd, .polyLo, .polyHi, .initLo, .initHi, .xoroutLo, .xoroutHi, .checkLo, .checkHi, .crcLo, .crcHi,
    .resultLo, .resultHi, .pnormLo, .pnormHi, .prevLo, .prevHi, .din0, .din1, .din2, .din3]

/-- Settles O26: with nothing pending a read answers the stored word, and the statement's list pairs each register's
offset with that word. -/
theorem registerMapReads : Obligations.RegisterMapReads := by
  unfold Obligations.RegisterMapReads
  intro s off d rest hp h hmem
  simp only [← hi32_eq_setWidth] at hmem
  simp only [← lo32_eq_setWidth] at hmem
  change (off, d) ∈ mappedRegs.map (fun r => (r.offset, s.stored r)) at hmem
  obtain ⟨r, -, hr⟩ := List.mem_map.1 hmem
  obtain ⟨rfl, rfl⟩ := Prod.mk.inj hr
  exact step_readReg_idle hp h

/-! ## STATUS and CAP -/

theorem getLsbD_flagAt (b : Bool) {n : Nat} (hn : n < 32) (i : Nat) :
    (flagAt b n).getLsbD i = (b && decide (i = n)) := by
  cases b with
  | false => simp [flagAt]
  | true => simp [flagAt, BitVec.getLsbD_twoPow, hn, eq_comm]

/-- STATUS bit by bit (10_state.md R33). -/
theorem getLsbD_statusWord (busy valid stDone stPass : Bool) (errs : BitVec 7) (i : Nat) :
    (statusWord busy valid stDone stPass errs).getLsbD i =
      ((busy && decide (i = 0)) || (valid && decide (i = 1)) || (stDone && decide (i = 2)) ||
        (stPass && decide (i = 3)) || (!decide (i < 8) && errs.getLsbD (i - 8))) := by
  have herrs : (errs.setWidth 32 <<< 8).getLsbD i = (!decide (i < 8) && errs.getLsbD (i - 8)) := by
    by_cases hi : i < 32
    · simp [hi]
    · simp [hi, BitVec.getLsbD_of_ge errs (i - 8) (by omega)]
  simp only [statusWord, BitVec.getLsbD_or, getLsbD_flagAt, Nat.reduceLT, herrs]

/-- The fields of the STATUS word (10_state.md R33). -/
theorem statusWord_layout (busy valid stDone stPass : Bool) (errs : BitVec 7) :
    (statusWord busy valid stDone stPass errs).getLsbD 0 = busy ∧
    (statusWord busy valid stDone stPass errs).getLsbD 1 = valid ∧
    (statusWord busy valid stDone stPass errs).getLsbD 2 = stDone ∧
    (statusWord busy valid stDone stPass errs).getLsbD 3 = stPass ∧
    (statusWord busy valid stDone stPass errs).extractLsb' 4 4 = 0 ∧
    (statusWord busy valid stDone stPass errs).extractLsb' 8 7 = errs ∧
    (statusWord busy valid stDone stPass errs).extractLsb' 15 17 = 0 := by
  simp only [getLsbD_statusWord]
  refine ⟨by simp, by simp, by simp, by simp, ?_, ?_, ?_⟩ <;> apply BitVec.eq_of_getLsbD_eq <;> intro i hi <;>
    rw [BitVec.getLsbD_extractLsb', getLsbD_statusWord]
  · simp [show 4 + i ≠ 1 by omega, show 4 + i ≠ 2 by omega, show 4 + i ≠ 3 by omega, show 4 + i < 8 by omega]
  · simp [hi, show 8 + i ≠ 1 by omega, show 8 + i ≠ 2 by omega, show 8 + i ≠ 3 by omega]
  · simp [show 15 + i ≠ 1 by omega, show 15 + i ≠ 2 by omega, show 15 + i ≠ 3 by omega,
      BitVec.getLsbD_of_ge errs (15 + i - 8) (by omega)]

/-- Settles O27: the idle read of STATUS returns the stored word, whose layout is `statusWord_layout`; and code n raises
bit n by the definition of `ErrorCode.bit`. -/
theorem statusAndErrorBitLayout : Obligations.StatusAndErrorBitLayout := by
  unfold Obligations.StatusAndErrorBitLayout
  refine ⟨fun s rest hp h => ⟨_, step_readReg_idle (r := .status) hp h, ?_⟩, fun s => ⟨rfl, rfl, rfl, rfl, rfl, rfl, rfl⟩⟩
  rw [State.stored, busy_eq_false.2 hp]
  exact statusWord_layout false s.valid s.stDone s.stPass s.errs

/-- CAP's code from K_MAX (10_state.md R36). -/
theorem capWord_eq (m : SliceMax) : capWord m = if m.kMax = 4 then 0 else if m.kMax = 8 then 1 else 2 := by
  cases m <;> rfl

/-- No step changes the parameters of the block (00_scope.md R9). -/
theorem step_params {s t : State} (h : step s = .next t) : t.params = s.params := by
  rcases step_register_cases h with ⟨i, _, rfl⟩ | ⟨_, rest, rfl⟩ | ⟨_, r, v, rest, _, rfl⟩ | hk
  · exact (effectOf_frame i s).1
  · rfl
  · rcases writeReg_cases (s.answered rest none false) r v with ⟨_, c, p, he⟩ | ⟨_, c, he⟩ |
      ⟨a, x, k, d0, d1, d2, d3, e, he⟩ <;> rw [he] <;> rfl
  · exact hk.sameParameterSet.params

/-- Settles O28: CAP draws no free value, its word is the code of SLICE_MAX, its write arm does nothing, and `step_params`
keeps the parameters as they are. -/
theorem capIsConstant : Obligations.CapIsConstant := by
  unfold Obligations.CapIsConstant
  refine ⟨fun s rest ht h => ?_, fun s v rest hp hw => step_writeReg (r := .cap) hp hw (by decide),
    fun s t h => step_params h⟩
  have hobs : s.observed .cap = capWord s.sliceMax := by simp [State.observed, Reg.unspecifiedWhileBusy, State.stored]
  have hdraws : s.drawsFor .cap = 0 := by simp [State.drawsFor, Reg.unspecifiedWhileBusy]
  rw [step_readReg (r := .cap) ht h, hobs, hdraws, capWord_eq]
  rfl

/-! ## Written words are read back -/

/-- CFG keeps five bits of the word, and reads with the others 0 (10_state.md R23). -/
theorem setWidth_extractLsb'_five (v : Word) : (v.extractLsb' 0 5).setWidth 32 = v &&& 0x1F := by
  have hmask : (0x1F : Word) = 0#27 ++ BitVec.allOnes 5 := by decide
  rw [hmask]
  apply BitVec.eq_of_getLsbD_eq
  intro i hi
  simp only [BitVec.getLsbD_and, BitVec.getLsbD_append, BitVec.getLsbD_allOnes]
  by_cases h : i < 5
  · simp [h, hi]
  · simp [h]

/-- A read-write register holds the word just written to it, CFG its five bits (10_state.md R23; 20_memory.md R57). -/
theorem stored_writeReg_same (s : State) {r : Reg} (v : Word)
    (hr : r ∈ [.cfg, .polyLo, .polyHi, .initLo, .initHi, .xoroutLo, .xoroutHi, .checkLo, .checkHi, .crcLo, .crcHi,
      .din0, .din1, .din2, .din3]) :
    (s.writeReg r v).stored r = if r = .cfg then v &&& 0x1F else v := by
  cases r with
  | cfg => exact setWidth_extractLsb'_five v
  | _ => simp [State.writeReg, State.stored] at hr ⊢ 

/-- A register write leaves the host's list and PENDING as they are. -/
theorem writeReg_frame (s : State) (r : Reg) (v : Word) :
    (s.writeReg r v).params = s.params ∧ (s.writeReg r v).pending = s.pending ∧ (s.writeReg r v).host = s.host := by
  rcases writeReg_cases s r v with ⟨_, c, p, he⟩ | ⟨_, c, he⟩ | ⟨a, x, k, d0, d1, d2, d3, e, he⟩ <;> rw [he] <;>
    exact ⟨rfl, rfl, rfl⟩

/-- Settles O30: the write's step, then the read's from the state it leaves. -/
theorem writtenRegistersReadBack : Obligations.WrittenRegistersReadBack := by
  unfold Obligations.WrittenRegistersReadBack
  intro s r v rest hp hr hhost
  have hcmd : r ≠ .cmd := by rintro rfl; simp at hr
  have hwrite := step_writeReg hp (show s.NextWrite r.offset 4 v (HostProgram.rd s.params r ++ rest) from hhost) hcmd
  obtain ⟨hparams, hpending, hhost'⟩ := writeReg_frame (s.answered (HostProgram.rd s.params r ++ rest) none false) r v
  have hread := step_readReg_idle (hpending.trans hp) (rest := rest) (r := r) (by
    rw [State.NextRead, hparams, hhost']
    rfl)
  rw [stored_writeReg_same _ v hr] at hread
  rw [core_run_succ, hwrite]
  dsimp only
  rw [core_run_succ, hread]
  exact ⟨_, rfl, rfl, rfl⟩

end Sys2Proof.Machine
end

section
/-! Proofs, part 3. The operands a command reads, and which of their bits it uses; and which events change each flag and
result register. -/

namespace Sys2Proof.Machine

/-! ## The input window (10_state.md R29) -/

/-- Bit n of the four DIN registers laid side by side stands in DIN(n/32). -/
theorem getLsbD_dinRegisters (s : State) {n : Nat} (hn : n < 128) :
    (s.din3 ++ s.din2 ++ s.din1 ++ s.din0).getLsbD n = (s.dinWord (n / 32)).getLsbD (n % 32) := by
  simp only [BitVec.getLsbD_append]
  obtain h | h | h | h : n / 32 = 0 ∨ n / 32 = 1 ∨ n / 32 = 2 ∨ n / 32 = 3 := by omega
  · simp [h, State.dinWord, show n < 32 by omega, show n % 32 = n by omega]
  · simp [h, State.dinWord, show ¬ n < 32 by omega, show n - 32 < 32 by omega, show n % 32 = n - 32 by omega]
  · simp [h, State.dinWord, show ¬ n < 32 by omega, show ¬ n - 32 < 32 by omega, show n - 32 - 32 < 32 by omega,
      show n % 32 = n - 32 - 32 by omega]
  · simp [h, State.dinWord, show ¬ n < 32 by omega, show ¬ n - 32 < 32 by omega, show ¬ n - 32 - 32 < 32 by omega,
      show n % 32 = n - 32 - 32 - 32 by omega]

/-- D[i] is byte i of the four DIN registers laid side by side. -/
theorem dinByte_eq (s : State) {i : Nat} (hi : i < 16) :
    s.dinByte i = (s.din3 ++ s.din2 ++ s.din1 ++ s.din0).extractLsb' (8 * i) 8 := by
  apply BitVec.eq_of_getLsbD_eq
  intro j hj
  have hword : (8 * i + j) / 32 = i / 4 := by omega
  have hbit : (8 * i + j) % 32 = 8 * (i % 4) + j := by omega
  rw [State.dinByte, BitVec.getLsbD_extractLsb', BitVec.getLsbD_extractLsb', getLsbD_dinRegisters s (by omega), hword,
    hbit]

/-- Settles O31: a prefix of the window, byte by byte. -/
theorem inputBytesAreTheWindow : Obligations.InputBytesAreTheWindow := by
  unfold Obligations.InputBytesAreTheWindow
  intro s len hlen
  rw [State.inputBytes, State.window, ← List.map_take, List.take_range, Nat.min_eq_left hlen]
  refine List.map_congr_left fun i hi => dinByte_eq s ?_
  have := List.mem_range.1 hi
  omega

/-! ## Bits 63:W of the parameter registers and of CRC (10_state.md R25, R27, R28) -/

/-- The state with other contents of POLY, INIT, XOROUT, CHECK and CRC. -/
def State.withParameters (s : State) (p a x k c : Dword) : State :=
  { s with poly := p, init := a, xorout := x, check := k, crc := c }

/-- The two states agree in what a completion writes: RESULT, PNORM, PREV, the tables, the flags and CRC[W-1:0]. -/
structure SameOutputs (w : Nat) (t t' : State) : Prop where
  result : t.result = t'.result
  pnorm : t.pnorm = t'.pnorm
  prev : t.prev = t'.prev
  tables : t.tables = t'.tables
  valid : t.valid = t'.valid
  stDone : t.stDone = t'.stDone
  stPass : t.stPass = t'.stPass
  crc : t.crc.setWidth w = t'.crc.setWidth w

section
variable {s : State} {p a x k c : Dword}

theorem updateEffect_sameOutputs (len : BitVec 5) (upd : BitVec s.W → List Byte → BitVec s.W)
    (hc : c.setWidth s.W = s.crc.setWidth s.W) :
    SameOutputs s.W (updateEffect len s upd) (updateEffect len (s.withParameters p a x k c) upd) := by
  have hcrc : (s.withParameters p a x k c).crcW = s.crcW := hc
  by_cases hlen : len = 0
  · simp only [updateEffect, if_pos hlen]
    exact ⟨rfl, rfl, rfl, rfl, rfl, rfl, rfl, hc.symm⟩
  · simp only [updateEffect, if_neg hlen, hcrc]
    exact ⟨rfl, rfl, rfl, rfl, rfl, rfl, rfl, rfl⟩

theorem constructEffect_sameOutputs (hp : p.setWidth s.W = s.poly.setWidth s.W)
    (hc : c.setWidth s.W = s.crc.setWidth s.W) :
    SameOutputs s.W (constructEffect s) (constructEffect (s.withParameters p a x k c)) := by
  have hpoly : (s.withParameters p a x k c).polyW = s.polyW := hp
  have hformat : (s.withParameters p a x k c).polyFormat = s.polyFormat := rfl
  rw [constructEffect, constructEffect, hformat]
  cases s.polyFormat with
  | none => exact ⟨rfl, rfl, rfl, rfl, rfl, rfl, rfl, hc.symm⟩
  | some f =>
    dsimp only [constructFrom]
    rw [hpoly]
    exact ⟨rfl, rfl, rfl, rfl, rfl, rfl, rfl, hc.symm⟩

theorem selftestEffect_sameOutputs (e : Engine) (ha : a.setWidth s.W = s.init.setWidth s.W)
    (hx : x.setWidth s.W = s.xorout.setWidth s.W) (hk : k.setWidth s.W = s.check.setWidth s.W)
    (hc : c.setWidth s.W = s.crc.setWidth s.W) :
    SameOutputs s.W (selftestEffect e s) (selftestEffect e (s.withParameters p a x k c)) := by
  have hinit : (s.withParameters p a x k c).initW = s.initW := ha
  have hxorout : (s.withParameters p a x k c).xoroutW = s.xoroutW := hx
  have hcheck : (s.withParameters p a x k c).checkW = s.checkW := hk
  have hengine : engineUpdate e (s.withParameters p a x k c) = engineUpdate e s := by cases e <;> rfl
  have hvalue : selftestValue e (s.withParameters p a x k c) = selftestValue e s := by
    rw [selftestValue, selftestValue, hinit, hxorout, hengine]
    rfl
  rw [selftestEffect, selftestEffect, hvalue, hcheck]
  exact ⟨rfl, rfl, rfl, rfl, rfl, rfl, rfl, hc.symm⟩

/-- A completion's outputs depend on bits W-1:0 of the five registers alone. -/
theorem effectOf_sameOutputs (i : Instr) (hp : p.setWidth s.W = s.poly.setWidth s.W)
    (ha : a.setWidth s.W = s.init.setWidth s.W) (hx : x.setWidth s.W = s.xorout.setWidth s.W)
    (hk : k.setWidth s.W = s.check.setWidth s.W) (hc : c.setWidth s.W = s.crc.setWidth s.W) :
    SameOutputs s.W (effectOf i s) (effectOf i (s.withParameters p a x k c)) := by
  have hinit : (s.withParameters p a x k c).initW = s.initW := ha
  have hxorout : (s.withParameters p a x k c).xoroutW = s.xoroutW := hx
  have hcrc : (s.withParameters p a x k c).crcW = s.crcW := hc
  cases i with
  | nop | reservedB | reservedC | reservedD | reservedE | reservedF =>
    exact ⟨rfl, rfl, rfl, rfl, rfl, rfl, rfl, hc.symm⟩
  | construct => exact constructEffect_sameOutputs hp hc
  | init =>
    dsimp only [effectOf]
    rw [hinit]
    exact ⟨rfl, rfl, rfl, rfl, rfl, rfl, rfl, rfl⟩
  | updBit len | updTbl len | updS4 len | updS8 len | updS16 len => exact updateEffect_sameOutputs len _ hc
  | finalize =>
    dsimp only [effectOf]
    rw [hcrc, hxorout]
    exact ⟨rfl, rfl, rfl, rfl, rfl, rfl, rfl, hc.symm⟩
  | selftest e => exact selftestEffect_sameOutputs e ha hx hk hc
  | tblRead j v => exact ⟨rfl, rfl, rfl, rfl, rfl, rfl, rfl, hc.symm⟩

end

/-- Settles O55: the two completions have the same outputs. -/
theorem bitsAboveWidthAreIgnored : Obligations.BitsAboveWidthAreIgnored := by
  unfold Obligations.BitsAboveWidthAreIgnored
  intro s i p a x k c hi hp ha hx hk hc
  obtain ⟨hresult, hpnorm, hprev, htables, hvalid, hdone, hpass, hcrc⟩ := effectOf_sameOutputs i hp ha hx hk hc
  exact ⟨_, _, exec_completes hi, exec_completes (s := s.withParameters p a x k c) hi, hresult, hpnorm, hprev, htables,
    hvalid, hdone, hpass, hcrc⟩

/-! ## Which events change the flags, the result registers and the tables -/

/-- The host's next action is one that makes VALID, ST_DONE and ST_PASS 0: reset, or an accepted write to CFG or to half
of POLY (10_state.md R24, R25, R33). -/
def State.InvalidatesNext (s : State) : Prop :=
  s.resetNext = true ∨ (s.pending = none ∧ ∃ (off : Nat) (v : Word) (rest : List HostAction),
    off ∈ [0x000, 0x010, 0x014] ∧ s.NextWrite off 4 v rest)

/-- All a step can do to the flags: keep them, clear all three, set VALID (CONSTRUCT), or set ST_DONE and decide ST_PASS
(SELFTEST). -/
theorem step_flag_cases {s t : State} (h : step s = .next t) :
    (t.valid = s.valid ∧ t.stDone = s.stDone ∧ t.stPass = s.stPass) ∨
    (s.InvalidatesNext ∧ t.valid = false ∧ t.stDone = false ∧ t.stPass = false) ∨
    (s.pending = some .construct ∧ t.pending = none ∧ t.valid = true ∧ t.stDone = s.stDone ∧ t.stPass = s.stPass) ∨
    ((∃ e, s.pending = some (.selftest e) ∧ t.pending = none) ∧ t.valid = s.valid ∧ t.stDone = true) := by
  rcases step_register_cases h with ⟨i, hp, rfl⟩ | ⟨hr, rest, rfl⟩ | ⟨hp, r, v, rest, hw, rfl⟩ | hk
  · rcases effectOf_cases i s with he | ⟨_, c, he⟩ | ⟨_, r, he⟩ | ⟨e, rfl, r, b, he⟩ | ⟨rfl, f, _, he⟩ <;> rw [he]
    · exact .inl ⟨rfl, rfl, rfl⟩
    · exact .inl ⟨rfl, rfl, rfl⟩
    · exact .inl ⟨rfl, rfl, rfl⟩
    · exact .inr (.inr (.inr ⟨⟨e, hp, rfl⟩, rfl, rfl⟩))
    · exact .inr (.inr (.inl ⟨hp, rfl, rfl, rfl, rfl⟩))
  · exact .inr (.inl ⟨.inl hr, rfl, rfl, rfl⟩)
  · rcases writeReg_cases (s.answered rest none false) r v with ⟨hmem, c, p, he⟩ | ⟨_, c, he⟩ |
      ⟨a, x, k, d0, d1, d2, d3, e, he⟩ <;> rw [he]
    · exact .inr (.inl ⟨.inr ⟨hp, _, v, rest, offset_of_mem_invalidatingRegs hmem, hw⟩, rfl, rfl, rfl⟩)
    · exact .inl ⟨rfl, rfl, rfl⟩
    · exact .inl ⟨rfl, rfl, rfl⟩
  · obtain ⟨-, -, -, -, -, -, -, -, -, -, -, -, -, -, hvalid, hdone, hpass, -⟩ := hk
    exact .inl ⟨hvalid, hdone, hpass⟩

/-- Settles O59: each clause is read off the four things a step can do to the flags; the statement's `invalidated` is
`State.InvalidatesNext`. -/
theorem whoChangesTheFlags : Obligations.WhoChangesTheFlags := by
  unfold Obligations.WhoChangesTheFlags
  intro s t h
  change _ ∧ (_ → _ → s.InvalidatesNext) ∧ _ ∧ (_ → _ → s.InvalidatesNext) ∧ _ ∧ (_ → _ → s.InvalidatesNext ∨ _)
  rcases step_flag_cases h with ⟨hv, hd, hs⟩ | ⟨hinv, hv, hd, hs⟩ | ⟨hp, ht, hv, hd, hs⟩ | ⟨hself, hv, hd⟩
  · simp +contextual [hv, hd, hs]
  · simp [hinv, hv, hd, hs]
  · simp +contextual [hp, ht, hv, hd, hs]
  · simp +contextual [hself, hv, hd]

/-- A command that writes CRC is INIT or an update command, as PENDING holds it. -/
theorem pending_of_writesCrc {o : Option Instr} {i : Instr} (ho : o = some i) (hi : writesCrc i) :
    o = some .init ∨ ∃ len : BitVec 5,
      o ∈ [some (.updBit len), some (.updTbl len), some (.updS4 len), some (.updS8 len), some (.updS16 len)] := by
  subst ho
  obtain rfl | ⟨len, hmem⟩ := hi
  · exact .inl rfl
  · exact .inr ⟨len, List.mem_map_of_mem hmem⟩

/-- A command that writes only RESULT is FINAL or TBL_READ, as PENDING holds it. -/
theorem pending_of_writesResult {o : Option Instr} {i : Instr} (ho : o = some i)
    (hi : i = .finalize ∨ ∃ k v, i = .tblRead k v) : o = some .finalize ∨ ∃ k v, o = some (.tblRead k v) := by
  subst ho
  simpa using hi

theorem offset_of_mem_crcRegs {r : Reg} (h : r ∈ [.crcLo, .crcHi]) : r.offset ∈ [0x030, 0x034] :=
  List.mem_map_of_mem (f := Reg.offset) h

/-- Settles O60: of the results of a completion, a register write and any other step, each that touches a result register
or the tables is the one the statement names. -/
theorem whoWritesTheResults : Obligations.WhoWritesTheResults := by
  unfold Obligations.WhoWritesTheResults
  intro s t h hreset
  rcases step_register_cases h with ⟨i, hp, rfl⟩ | ⟨hr, _⟩ | ⟨hp, r, v, rest, hw, rfl⟩ | hk
  · rcases effectOf_cases i s with he | ⟨hi, c, he⟩ | ⟨hi, r, he⟩ | ⟨e, rfl, r, b, he⟩ | ⟨rfl, f, _, he⟩ <;> rw [he]
    · exact ⟨absurd rfl, absurd rfl, (·.elim (absurd rfl) (absurd rfl)), absurd rfl⟩
    · exact ⟨fun _ => .inr (pending_of_writesCrc hp hi), absurd rfl, (·.elim (absurd rfl) (absurd rfl)), absurd rfl⟩
    · exact ⟨absurd rfl, fun _ => (pending_of_writesResult hp hi).imp_right .inr,
        (·.elim (absurd rfl) (absurd rfl)), absurd rfl⟩
    · exact ⟨absurd rfl, fun _ => .inr (.inl ⟨e, hp⟩), (·.elim (absurd rfl) (absurd rfl)), absurd rfl⟩
    · exact ⟨absurd rfl, absurd rfl, fun _ => hp, fun _ => .inl hp⟩
  · simp [hreset] at hr
  · rcases writeReg_cases (s.answered rest none false) r v with ⟨hmem, c, p, he⟩ | ⟨hmem, c, he⟩ |
      ⟨a, x, k, d0, d1, d2, d3, e, he⟩ <;> rw [he]
    · exact ⟨absurd rfl, absurd rfl, (·.elim (absurd rfl) (absurd rfl)),
        fun _ => .inr ⟨hp, rfl, _, v, rest, offset_of_mem_invalidatingRegs hmem, hw⟩⟩
    · exact ⟨fun _ => .inl ⟨hp, _, v, rest, offset_of_mem_crcRegs hmem, hw⟩, absurd rfl,
        (·.elim (absurd rfl) (absurd rfl)), absurd rfl⟩
    · exact ⟨absurd rfl, absurd rfl, (·.elim (absurd rfl) (absurd rfl)), absurd rfl⟩
  · obtain ⟨-, -, -, -, -, -, hcrc, hresult, hpnorm, hprev, -, -, -, -, -, -, -, htables⟩ := hk
    exact ⟨absurd hcrc, absurd hresult, (·.elim (absurd hpnorm) (absurd hprev)), absurd htables⟩

end Sys2Proof.Machine
end

section
/-! Proofs, part 4. The accesses that have no effect on a register, or store one word; the completion of a command; and
the stability of what a pending command reads. -/

namespace Sys2Proof.Machine

/-! ## The host's turn at an access of the window -/

/-- A cycle that passes leaves the host's next write the same one. -/
theorem State.NextWrite.tick {s : State} {off size : Nat} {v : Word} {rest : List HostAction}
    (h : s.NextWrite off size v rest) : s.tick.NextWrite off size v rest := by
  unfold State.tick
  split <;> exact h

/-- A write inside the window, busy or not, is what the bus makes of it one cycle on. -/
theorem nextAction_write {s : State} {off size : Nat} {v : Word} {rest : List HostAction} (ht : s.HostsTurn)
    (ho : off < 4096) (h : s.NextWrite off size v rest) :
    nextAction s = State.busWrite { s.tick with host := rest } off size v :=
  (nextAction_hostsTurn ht (resetNext_eq_false_of_write h)).trans (hostTurn_write h.tick ho)

/-- A read inside the window, busy or not, is what the bus makes of it one cycle on. -/
theorem step_read {s : State} {off size : Nat} {rest : List HostAction} (ht : s.HostsTurn) (ho : off < 4096)
    (h : s.NextRead off size rest) : step s = .next (State.busRead { s.tick with host := rest } off size) :=
  step_of_done ((nextAction_hostsTurn ht (resetNext_eq_false_of_read h)).trans (hostTurn_read h.tick ho))

/-- Taking the host's action and answering it commutes with the passing cycle. -/
theorem respond_tick (s : State) (rest : List HostAction) (d : Option Word) (err : Bool) :
    State.respond { s.tick with host := rest } d err = (s.answered rest d err).tick := by
  rw [tick_eq, tick_eq]
  rfl

/-! ## Refused accesses (20_memory.md R52, R53) -/

theorem accessLegal_eq_true {off size : Nat} : accessLegal off size = true ↔ size = 4 ∧ off % 4 = 0 := by
  simp [accessLegal]

theorem accessLegal_eq_false {off size : Nat} (h : ¬ (size = 4 ∧ off % 4 = 0)) : accessLegal off size = false :=
  Bool.eq_false_iff.2 (mt accessLegal_eq_true.1 h)

theorem busRead_illegal {s : State} {off size : Nat} (hl : accessLegal off size = false) :
    s.busRead off size = s.refuseAccess (some 0) := by
  simp [State.busRead, hl]

/-- A refused access, once the cycle has passed, is its answer with E_ACC raised. -/
theorem refuseAccess_tick (s : State) (rest : List HostAction) (d : Option Word) :
    State.refuseAccess { s.tick with host := rest } d = (s.answered rest d s.params.busErr).tick.raise .acc := by
  rw [← respond_tick, tick_eq]
  rfl

/-- Settles O11: the bus refuses an illegal write and an illegal read before it looks at the register or at BUSY. -/
theorem illegalAccessIsRefused : Obligations.IllegalAccessIsRefused := by
  unfold Obligations.IllegalAccessIsRefused
  intro s off size v rest ho hillegal ht
  have hl := accessLegal_eq_false hillegal
  refine ⟨fun hw => ?_, fun hr => ?_⟩
  · rw [step_of_done ((nextAction_write ht ho hw).trans (busWrite_illegal hl)), refuseAccess_tick]
  · rw [step_read ht ho hr, busRead_illegal hl, refuseAccess_tick]

/-! ## Reserved offsets and read-only registers (20_memory.md R54) -/

/-- A reserved offset reads 0. -/
theorem busRead_reserved (s : State) {off : Nat} (hl : accessLegal off 4 = true) (ho : 0x060 ≤ off) :
    s.busRead off 4 = s.respond (some 0) false := by
  simp [State.busRead, State.readLegal, hl, Reg.ofOffset_reserved ho]

/-- A reserved offset ignores a write. -/
theorem busWrite_reserved {s : State} {off : Nat} {v : Word} (hp : s.pending = none) (hl : accessLegal off 4 = true)
    (ho : 0x060 ≤ off) : s.busWrite off 4 v = .done (s.respond none false) := by
  simp [State.busWrite, hl, busy_eq_false.2 hp, Reg.ofOffset_reserved ho]

/-- CMD reads 0 and draws no free value, busy or not. -/
theorem step_readCmd {s : State} {rest : List HostAction} (ht : s.HostsTurn) (h : s.NextRead 0x004 4 rest) :
    step s = .next (s.answered rest (some 0) false).tick := by
  have hobs : s.observed .cmd = 0 := by simp [State.observed, Reg.unspecifiedWhileBusy, State.stored]
  have hdraws : s.drawsFor .cmd = 0 := by simp [State.drawsFor, Reg.unspecifiedWhileBusy]
  rw [step_readReg (r := .cmd) ht h, hobs, hdraws]
  rfl

/-- The registers that ignore a write, in the order of the map. -/
def readOnlyRegs : List Reg := [.cap, .resultLo, .resultHi, .pnormLo, .pnormHi, .prevLo, .prevHi]

theorem writeReg_readOnly {r : Reg} (hr : r ∈ readOnlyRegs) (s : State) (v : Word) : s.writeReg r v = s := by
  simp only [readOnlyRegs, List.mem_cons, List.not_mem_nil, or_false] at hr
  obtain rfl | rfl | rfl | rfl | rfl | rfl | rfl := hr <;> rfl

/-- An accepted write to a read-only register does nothing. -/
theorem step_writeReadOnly {s : State} {r : Reg} {v : Word} {rest : List HostAction} (hr : r ∈ readOnlyRegs)
    (hp : s.pending = none) (hw : s.NextWrite r.offset 4 v rest) : step s = .next (s.answered rest none false) := by
  have hcmd : r ≠ .cmd := by rintro rfl; simp [readOnlyRegs] at hr
  rw [step_writeReg hp hw hcmd, writeReg_readOnly hr]

/-- Settles O25: CMD and the read-only registers by their own rules, the reserved offsets by the bus's; the statement's
list is that of the read-only registers' offsets. -/
theorem reservedAndReadOnlyOffsets : Obligations.ReservedAndReadOnlyOffsets := by
  unfold Obligations.ReservedAndReadOnlyOffsets
  intro s off v rest ho halign
  have hl : accessLegal off 4 = true := accessLegal_eq_true.2 ⟨rfl, halign⟩
  refine ⟨?_, ?_⟩
  · rintro (rfl | hreserved) ht hr
    · exact step_readCmd ht hr
    · rw [step_read ht ho hr, busRead_reserved _ hl hreserved, respond_tick]
  · rintro (hmem | hreserved) hp hw
    · obtain ⟨r, hr, rfl⟩ := List.mem_map.1 (show off ∈ readOnlyRegs.map Reg.offset from hmem)
      exact step_writeReadOnly hr hp hw
    · have hturn := nextAction_write (.inl hp) ho hw
      rw [tick_idle hp] at hturn
      exact step_of_done (hturn.trans (busWrite_reserved hp hl hreserved))

/-! ## Registers that store the written word (20_memory.md R56, R57) -/

/-- Settles O23: with the statement's masks read as the halves of a register, each clause is one arm of
`State.writeReg`. -/
theorem dataWritesStoreTheWord : Obligations.DataWritesStoreTheWord := by
  unfold Obligations.DataWritesStoreTheWord
  intro s v rest hp
  simp only [← joinWords_hi32, ← joinWords_lo32]
  have write (r : Reg) (hr : r ≠ .cmd) (hw : s.NextWrite r.offset 4 v rest) :
      step s = .next ((s.answered rest none false).writeReg r v) := step_writeReg hp hw hr
  exact ⟨write .initLo nofun, write .initHi nofun, write .xoroutLo nofun, write .xoroutHi nofun, write .checkLo nofun,
    write .checkHi nofun, write .crcLo nofun, write .crcHi nofun, write .din0 nofun, write .din1 nofun,
    write .din2 nofun, write .din3 nofun⟩

/-! ## The pending command (20_memory.md R59, R62) -/

/-- Settles O6: a completion is the command's effect and its leaving PENDING, and no effect touches the error bits or the
host's list. -/
theorem completionIsOneStepWithoutError : Obligations.CompletionIsOneStepWithoutError := by
  unfold Obligations.CompletionIsOneStepWithoutError
  intro s i hi
  obtain ⟨-, -, -, -, -, -, -, -, -, -, herrs, -, -, hhost, -, -⟩ := effectOf_frame i s
  exact ⟨⟨_, exec_completes hi, rfl, herrs, hhost⟩, fun hc hr => step_of_run (nextAction_complete hi hc hr)⟩

/-- A step after which a command that was pending still is changes no register, flag or table: a completion and a reset
empty PENDING, and a register write is accepted only with nothing pending. -/
theorem keeps_of_still_pending {s t : State} {i : Instr} (hs : s.pending = some i) (h : step s = .next t)
    (ht : t.pending = some i) : Keeps s t := by
  rcases step_register_cases h with ⟨j, _, rfl⟩ | ⟨_, rest, rfl⟩ | ⟨hp, _⟩ | hk
  · simp at ht
  · simp at ht
  · simp [hs] at hp
  · exact hk

/-- Settles O58: the inputs, results, flags and tables are among what such a step keeps. -/
theorem pendingInputsAreStable : Obligations.PendingInputsAreStable := by
  unfold Obligations.PendingInputsAreStable
  intro s t i hs h ht
  obtain ⟨-, hcfg, hpoly, hinit, hxorout, hcheck, hcrc, hresult, hpnorm, hprev, hdin0, hdin1, hdin2, hdin3, hvalid, hdone,
    hpass, htables⟩ := keeps_of_still_pending hs h ht
  exact ⟨hdin0, hdin1, hdin2, hdin3, hcrc, hcfg, hpoly, hinit, hxorout, hcheck, hpnorm, hprev, hresult, htables, hvalid,
    hdone, hpass⟩

end Sys2Proof.Machine
end

section
/-! Proofs, part 5. The command words: the fields by division and remainder, the formats, and the decoder against the
encoder (30_encoding.md R70 to R80). -/

namespace Sys2Proof

/-! ## The fields of a word, by division and remainder (30_encoding.md R71 to R76) -/

/-- A field is the quotient at its lowest bit, cut to its width. -/
theorem field_eq_ofNat (w : Word) (start len : Nat) :
    w.extractLsb' start len = BitVec.ofNat len (w.toNat / 2 ^ start) := by
  rw [BitVec.extractLsb', Nat.shiftRight_eq_div_pow]

theorem opField_eq (w : Word) : opField w = BitVec.ofNat 4 w.toNat := (field_eq_ofNat w 0 4).trans (by simp)

theorem lenField_eq (w : Word) : lenField w = BitVec.ofNat 5 (w.toNat / 16) := field_eq_ofNat w 4 5

theorem engField_eq (w : Word) : engField w = BitVec.ofNat 3 (w.toNat / 16) := field_eq_ofNat w 4 3

theorem tkField_eq (w : Word) : tkField w = BitVec.ofNat 4 (w.toNat / 256) := field_eq_ofNat w 8 4

theorem tvField_eq (w : Word) : tvField w = BitVec.ofNat 8 (w.toNat / 4096) := field_eq_ofNat w 12 8

theorem restField_eq (w : Word) : restField w = BitVec.ofNat 28 (w.toNat / 16) := field_eq_ofNat w 4 28

theorem field_eq_zero_iff (w : Word) (start len : Nat) :
    w.extractLsb' start len = 0 ↔ w.toNat / 2 ^ start % 2 ^ len = 0 := by
  rw [field_eq_ofNat, ← BitVec.toNat_inj, BitVec.toNat_ofNat]
  rfl

/-- Every bit from `start` up is 0 when nothing of the word is left above it. -/
theorem upperBits_eq_zero_iff (w : Word) {start len : Nat} (h : start + len = 32) :
    w.extractLsb' start len = 0 ↔ w.toNat / 2 ^ start = 0 := by
  have hlt : w.toNat / 2 ^ start < 2 ^ len := Nat.div_lt_of_lt_mul (by rw [← Nat.pow_add, h]; exact w.isLt)
  rw [field_eq_zero_iff, Nat.mod_eq_of_lt hlt]

/-! ## The four formats (30_encoding.md R72 to R75) -/

/-- Two checks in turn that refuse alike are one check. -/
theorem ite_then_ite {α : Type} {p q : Prop} [Decidable p] [Decidable q] (a b : α) :
    (if p then if q then a else b else b) = if p ∧ q then a else b := by
  by_cases hp : p
  · simp only [hp, true_and, if_true]
  · simp only [hp, false_and, if_false]

theorem decodeN_eq (i : Instr) (w : Word) :
    decodeN i w = if w.toNat / 16 = 0 then .command i else .illFormed := by
  simp only [decodeN, upperBits_eq_zero_iff w (show 4 + 28 = 32 from rfl), Nat.reducePow]

theorem decodeU_eq (mk : BitVec 5 → Instr) (w : Word) :
    decodeU mk w = if w.toNat / 512 = 0 ∧ w.toNat / 16 % 32 ≤ 16 then
      .command (mk (BitVec.ofNat 5 (w.toNat / 16))) else .illFormed := by
  simp only [decodeU, lenLegal, lenField_eq, BitVec.toNat_ofNat, decide_eq_true_eq,
    upperBits_eq_zero_iff w (show 9 + 23 = 32 from rfl), Nat.reducePow, ite_then_ite]

theorem decodeT_eq (m : SliceMax) (w : Word) :
    decodeT m w = if w.toNat / 2 ^ 20 = 0 ∧ w.toNat / 16 % 16 = 0 ∧ w.toNat / 256 % 16 < m.kMax then
      .command (.tblRead (BitVec.ofNat 4 (w.toNat / 256)) (BitVec.ofNat 8 (w.toNat / 4096))) else .illFormed := by
  simp only [decodeT, tkField_eq, tvField_eq, BitVec.toNat_ofNat, upperBits_eq_zero_iff w (show 20 + 12 = 32 from rfl),
    field_eq_zero_iff, Nat.reducePow, ite_then_ite, and_assoc]

theorem Engine.ofCode_eq_some_iff {c : BitVec 3} {e : Engine} : Engine.ofCode c = some e ↔ c = e.code := by
  cases e <;> revert c <;> decide

theorem Engine.code_lt (e : Engine) : e.code.toNat < 5 := by cases e <;> decide

/-- A format S word whose bits 31:4 are the code of an engine. -/
theorem decodeS_code {m : SliceMax} {w : Word} {e : Engine} (h : w.toNat / 16 = e.code.toNat) :
    decodeS m w = if e.present m then .command (.selftest e) else .illFormed := by
  have hlt := e.code_lt
  have hzero : w.extractLsb' 7 25 = 0 := (upperBits_eq_zero_iff w rfl).2 (by omega)
  have heng : engField w = e.code := by rw [engField_eq, h, BitVec.ofNat_toNat, BitVec.setWidth_eq]
  simp only [decodeS, hzero, Engine.ofCode_eq_some_iff.2 heng, if_true]

/-- A format S word whose bits 31:4 are the code of no engine. -/
theorem decodeS_noCode {m : SliceMax} {w : Word} (h : 5 ≤ w.toNat / 16) : decodeS m w = .illFormed := by
  rw [decodeS]
  split
  next hzero =>
    have hupper := (upperBits_eq_zero_iff w (by rfl)).1 hzero
    have hnone : Engine.ofCode (engField w) = none := by
      refine Option.eq_none_iff_forall_ne_some.2 fun e he => ?_
      have hcode := congrArg BitVec.toNat (Engine.ofCode_eq_some_iff.1 he)
      have hlt := e.code_lt
      rw [engField_eq, BitVec.toNat_ofNat] at hcode
      omega
    rw [hnone]
  next => rfl

/-! ## The opcode map (30_encoding.md R77, R78, R80) -/

theorem SliceMax.hasS8_eq (m : SliceMax) : m.hasS8 = decide (8 ≤ m.kMax) := by cases m <;> rfl

theorem SliceMax.hasS16_eq (m : SliceMax) : m.hasS16 = decide (m.kMax = 16) := by cases m <;> rfl

/-- A choice between two answers, as the two clauses of a statement. -/
theorem clauses_of_eq_ite {α : Type} {p : Prop} [Decidable p] {x a b : α} (h : x = if p then a else b) :
    (p → x = a) ∧ (¬ p → x = b) := ⟨fun hp => h.trans (if_pos hp), fun hn => h.trans (if_neg hn)⟩

/-- Settles O3: the match of `decode` on OP, and in each arm the format's equation. -/
theorem decodeFollowsTheOpcodeMap : Obligations.DecodeFollowsTheOpcodeMap := by
  unfold Obligations.DecodeFollowsTheOpcodeMap
  intro m w n len okU okT
  have formatU (mk : BitVec 5 → Instr) :
      (okU → decodeU mk w = .command (mk len)) ∧ (¬ okU → decodeU mk w = .illFormed) :=
    clauses_of_eq_ite (decodeU_eq mk w)
  have formatS {e : Engine} (h : n / 16 = e.code.toNat) := decodeS_code (m := m) h
  rw [decode, opField_eq, BitVec.toNat_ofNat, restField_eq, SliceMax.hasS8_eq, SliceMax.hasS16_eq]
  refine ⟨?nop, ?construct, ?init, ?updBit, ?updTbl, ?updS4, ?updS8, ?updS16, ?finalize, ?selftest, ?tblRead,
    ?reservedB, ?reservedC, ?reservedD, ?reservedE, ?reservedF⟩ <;> intro hop <;>
    rw [show w.toNat % 2 ^ 4 = _ from hop]
  case nop => exact decodeN_eq .nop w
  case construct => exact decodeN_eq .construct w
  case init => exact decodeN_eq .init w
  case updBit => exact formatU .updBit
  case updTbl => exact formatU .updTbl
  case updS4 => exact formatU .updS4
  case updS8 =>
    refine ⟨fun h => if_neg (by rw [decide_eq_true_eq]; omega), fun h => ?_⟩
    rw [if_pos (decide_eq_true h)]
    exact formatU .updS8
  case updS16 =>
    refine ⟨fun h => if_neg (by rw [decide_eq_true_eq]; omega), fun h => ?_⟩
    rw [if_pos (decide_eq_true h)]
    exact formatU .updS16
  case finalize => exact decodeN_eq .finalize w
  case selftest =>
    refine ⟨formatS (e := .bit), formatS (e := .tbl), formatS (e := .s4), fun h => ?_, fun h => ?_, decodeS_noCode⟩
    · simpa only [Engine.present, SliceMax.hasS8_eq, decide_eq_true_eq] using formatS (e := .s8) h
    · simpa only [Engine.present, SliceMax.hasS16_eq, decide_eq_true_eq] using formatS (e := .s16) h
  case tblRead => exact clauses_of_eq_ite (decodeT_eq m w)
  case reservedB | reservedC | reservedD | reservedE | reservedF => rfl

/-! ## The encoder (30_encoding.md R70, R71, R79) -/

/-- Bits 31:4 are the quotient by 16, which they hold whole. -/
theorem toNat_restField (w : Word) : (restField w).toNat = w.toNat / 16 := by
  have hlt : w.toNat / 16 < 2 ^ 28 := Nat.div_lt_of_lt_mul w.isLt
  rw [restField_eq, BitVec.toNat_ofNat, Nat.mod_eq_of_lt hlt]

/-- A word is its OP and the bits above it. -/
theorem encode_eq {i : Instr} {w : Word} (hop : i.op = opField w) (hupper : i.upper = restField w) : encode i = w := by
  rw [encode, hop, hupper]
  exact BitVec.extractLsb'_append_extractLsb' (w := 28) (len := 4)

/-- Format U places LEN right above OP. -/
theorem toNat_len_upper (len : BitVec 5) : (len.setWidth 28).toNat = len.toNat :=
  BitVec.toNat_setWidth_of_le (by decide)

/-- Format S places ENG right above OP. -/
theorem toNat_code_upper (e : Engine) : (e.code.setWidth 28).toNat = e.code.toNat :=
  BitVec.toNat_setWidth_of_le (by decide)

/-- Format T places TK at bit 8 and TV at bit 12 of the word, so at bits 4 and 8 above OP. -/
theorem toNat_tblRead_upper (k : BitVec 4) (v : Byte) :
    (Instr.tblRead k v).upper.toNat = 256 * v.toNat + 16 * k.toNat := by
  have hk := k.isLt
  have hv := v.isLt
  have hlow : k.toNat <<< 4 < 2 ^ 8 := by rw [Nat.shiftLeft_eq]; omega
  simp only [Instr.upper, BitVec.toNat_or, BitVec.toNat_shiftLeft, BitVec.toNat_setWidth_of_le (show 4 ≤ 28 by decide),
    BitVec.toNat_setWidth_of_le (show 8 ≤ 28 by decide)]
  rw [Nat.mod_eq_of_lt (by omega), Nat.mod_eq_of_lt (by rw [Nat.shiftLeft_eq]; omega),
    ← Nat.shiftLeft_add_eq_or_of_lt hlow, Nat.shiftLeft_eq, Nat.shiftLeft_eq]
  omega

/-! ### A word that decodes to a command -/

theorem decodeN_encodes {m : SliceMax} {i j : Instr} {w : Word} (h : decodeN j w = .command i) (hop : j.op = opField w)
    (hupper : j.upper = 0) (hwf : j.wellFormed m = true) : encode i = w ∧ i.wellFormed m = true := by
  obtain ⟨rfl, hzero⟩ := decodeN_command h
  exact ⟨encode_eq hop (hupper.trans hzero.symm), hwf⟩

theorem decodeU_encodes {m : SliceMax} {i : Instr} {mk : BitVec 5 → Instr} {w : Word} (h : decodeU mk w = .command i)
    (hop : ∀ len, (mk len).op = opField w) (hupper : ∀ len, (mk len).upper = len.setWidth 28)
    (hwf : ∀ len, (mk len).wellFormed m = lenLegal len) : encode i = w ∧ i.wellFormed m = true := by
  obtain ⟨rfl, hlen, hzero⟩ := decodeU_command h
  have hupper9 := (upperBits_eq_zero_iff w (by rfl)).1 hzero
  refine ⟨encode_eq (hop _) (BitVec.eq_of_toNat_eq ?_), (hwf _).trans hlen⟩
  rw [hupper, toNat_len_upper, toNat_restField, lenField_eq, BitVec.toNat_ofNat]
  omega

theorem decodeS_encodes {m : SliceMax} {i : Instr} {w : Word} (h : decodeS m w = .command i) (hop : 0x9 = opField w) :
    encode i = w ∧ i.wellFormed m = true := by
  obtain ⟨e, he, rfl, hpresent, hzero⟩ := decodeS_command h
  have hupper7 := (upperBits_eq_zero_iff w (by rfl)).1 hzero
  refine ⟨encode_eq hop (BitVec.eq_of_toNat_eq ?_), hpresent⟩
  rw [Instr.upper, toNat_code_upper, toNat_restField, ← Engine.ofCode_eq_some_iff.1 he, engField_eq, BitVec.toNat_ofNat]
  omega

theorem decodeT_encodes {m : SliceMax} {i : Instr} {w : Word} (h : decodeT m w = .command i) (hop : 0xA = opField w) :
    encode i = w ∧ i.wellFormed m = true := by
  obtain ⟨rfl, hk, hzero, hgap⟩ := decodeT_command h
  have hupper20 := (upperBits_eq_zero_iff w (by rfl)).1 hzero
  have hbits := (field_eq_zero_iff w 4 4).1 hgap
  refine ⟨encode_eq hop (BitVec.eq_of_toNat_eq ?_), decide_eq_true hk⟩
  rw [toNat_tblRead_upper, toNat_restField, tkField_eq, tvField_eq, BitVec.toNat_ofNat, BitVec.toNat_ofNat]
  omega

/-- Settles O2: the arms of `decode`, each by what its format's command encodes to. -/
theorem encodeInvertsDecode : Obligations.EncodeInvertsDecode := by
  unfold Obligations.EncodeInvertsDecode
  intro m w i h
  have ofWellFormed (hw : encode i = w ∧ i.wellFormed m = true) :
      encode i = w ∧ (i.wellFormed m = true ∨ i.isReserved = true) := ⟨hw.1, .inl hw.2⟩
  have ofReserved {j : Instr} (hj : Decoded.command j = .command i) (hop : j.op = opField w)
      (hupper : j.upper = restField w) (hr : j.isReserved = true) :
      encode i = w ∧ (i.wellFormed m = true ∨ i.isReserved = true) := by
    obtain rfl : j = i := by simpa using hj
    exact ⟨encode_eq hop hupper, .inr hr⟩
  unfold decode at h
  split at h <;> rename_i hop
  case h_1 | h_2 | h_3 | h_9 => exact ofWellFormed (decodeN_encodes h (BitVec.eq_of_toNat_eq hop.symm) rfl rfl)
  case h_4 | h_5 | h_6 =>
    exact ofWellFormed (decodeU_encodes h (fun _ => BitVec.eq_of_toNat_eq hop.symm) (fun _ => rfl) (fun _ => rfl))
  case h_7 | h_8 =>
    split at h
    next hpresent =>
      exact ofWellFormed (decodeU_encodes h (fun _ => BitVec.eq_of_toNat_eq hop.symm) (fun _ => rfl)
        (fun _ => by simp [Instr.wellFormed, Instr.present, Instr.operandsLegal, hpresent]))
    next => simp at h
  case h_10 => exact ofWellFormed (decodeS_encodes h (BitVec.eq_of_toNat_eq hop.symm))
  case h_11 => exact ofWellFormed (decodeT_encodes h (BitVec.eq_of_toNat_eq hop.symm))
  case h_12 | h_13 | h_14 | h_15 => exact ofReserved h (BitVec.eq_of_toNat_eq hop.symm) rfl rfl
  case h_16 =>
    have hlt := (opField w).isLt
    have hF : (opField w).toNat = 15 := by
      simp only [imp_false] at *
      omega
    exact ofReserved h (BitVec.eq_of_toNat_eq hF.symm) rfl rfl

/-! ### The word of a command -/

/-- A format U word whose bits 31:4 are a legal LEN. -/
theorem decodeU_len (mk : BitVec 5 → Instr) {w : Word} {len : BitVec 5} (h : w.toNat / 16 = len.toNat)
    (hlen : lenLegal len = true) : decodeU mk w = .command (mk len) := by
  have hle : len.toNat ≤ 16 := of_decide_eq_true hlen
  rw [decodeU_eq, if_pos ⟨by omega, by omega⟩, h, BitVec.ofNat_toNat, BitVec.setWidth_eq]

/-- A format T word whose bits 31:4 are TV and a legal TK. -/
theorem decodeT_fields {m : SliceMax} {w : Word} {k : BitVec 4} {v : Byte}
    (h : w.toNat / 16 = 256 * v.toNat + 16 * k.toNat) (hk : k.toNat < m.kMax) :
    decodeT m w = .command (.tblRead k v) := by
  have hk16 := k.isLt
  have hv := v.isLt
  have htk : w.toNat / 256 % 16 = k.toNat := by omega
  have htv : w.toNat / 4096 = v.toNat := by omega
  have hk' : BitVec.ofNat 4 (w.toNat / 256) = k := BitVec.eq_of_toNat_eq (by rw [BitVec.toNat_ofNat]; exact htk)
  rw [decodeT_eq, if_pos ⟨by omega, by omega, by omega⟩, hk', htv, BitVec.ofNat_toNat, BitVec.setWidth_eq]

/-- Settles O1: OP selects the command's own arm of `decode`, and bits 31:4 give the fields back. -/
theorem decodeEncodeRoundTrip : Obligations.DecodeEncodeRoundTrip := by
  unfold Obligations.DecodeEncodeRoundTrip
  intro m i h
  have hop : opField (encode i) = i.op := opField_append _ _
  have hrest : restField (encode i) = i.upper := restField_append _ _
  have hupper : (encode i).toNat / 16 = i.upper.toNat := by rw [← toNat_restField, hrest]
  have legal (hr : i.isReserved = false) : i.present m = true ∧ i.operandsLegal m = true := by
    simpa [Instr.wellFormed, hr] using h
  rw [decode, hop, hrest]
  cases i with
  | nop | construct | init | finalize => exact (decodeN_eq _ _).trans (if_pos hupper)
  | updBit len | updTbl len | updS4 len => exact decodeU_len _ (hupper.trans (toNat_len_upper len)) (legal rfl).2
  | updS8 len | updS16 len =>
    obtain ⟨hpresent, hlen⟩ := legal rfl
    exact (if_pos hpresent).trans (decodeU_len _ (hupper.trans (toNat_len_upper len)) hlen)
  | selftest e => exact (decodeS_code (hupper.trans (toNat_code_upper e))).trans (if_pos (legal rfl).2)
  | tblRead k v =>
    exact decodeT_fields (hupper.trans (toNat_tblRead_upper k v)) (of_decide_eq_true (legal rfl).2)
  | reservedB rest | reservedC rest | reservedD rest | reservedE rest | reservedF rest => rfl

/-- Settles O4: the model's decoder, evaluated at the seven words. -/
theorem sampleWordsDecode : Obligations.SampleWordsDecode := by
  unfold Obligations.SampleWordsDecode
  decide

end Sys2Proof
end

section
/-! Proofs, part 6. The pseudo-instructions of the host: the WAIT loop and LOADDIN (30_encoding.md R83). -/

namespace Sys2Proof.Machine

/-- A run's first step, when it answers a next state. -/
theorem run_succ_of_step {s t : State} (h : step s = .next t) (k : Nat) :
    Host.Core.run Sys2Proof.core (k + 1) s = Host.Core.run Sys2Proof.core k t := by
  rw [core_run_succ, h]

/-! ## WAIT (log 17) -/

/-- Bit 0 of STATUS is BUSY, whatever else reads as unspecified (10_state.md R33, R35). -/
theorem getLsbD_observed_status_zero (s : State) : (s.observed .status).getLsbD 0 = s.busy := by
  have hbusy (valid stDone stPass : Bool) (h : s.pending ≠ none) :
      (statusWord true valid stDone stPass s.errs).getLsbD 0 = s.busy :=
    (statusWord_layout true valid stDone stPass s.errs).1.trans (busy_eq_true.2 h).symm
  rw [State.observed, if_pos rfl, State.observedStatus]
  split
  next hp => exact hbusy _ _ _ (by simp [hp])
  next =>
    split
    next hp => exact hbusy _ _ _ (by intro h; simp [State.selftestPending, h] at hp)
    next => exact (statusWord_layout s.busy s.valid s.stDone s.stPass s.errs).1

/-- A poll is a legal read of STATUS, after which WAIT stays while BUSY = 1 (30_encoding.md R83). -/
theorem step_wait {s : State} {rest : List HostAction} (ht : s.HostsTurn) (h : s.host = .wait :: rest) :
    step s = .next (({ s with draws := s.draws + s.drawsFor .status }.answered (if s.busy then s.host else rest)
      (some (s.observed .status)) false).tick) := by
  have hreset : s.resetNext = false := by simp [State.resetNext, h]
  have hturn : hostTurn s.tick =
      .done (State.busRead { s.tick with host := if s.tick.busy then s.tick.host else rest } (Reg.offset .status) 4) := by
    rw [hostTurn, show s.tick.host = .wait :: rest by rw [tick_eq]; exact h]
  rw [step_of_done ((nextAction_hostsTurn ht hreset).trans hturn), busRead_reg, tick_eq, tick_eq]
  rfl

/-- The last poll of WAIT: nothing is pending, and BUSY reads 0. -/
theorem step_wait_idle {s : State} {rest : List HostAction} (hp : s.pending = none) (h : s.host = .wait :: rest) :
    step s = .next (s.answered rest (some (s.stored .status)) false) := by
  rw [step_wait (.inl hp) h, observed_idle hp, drawsFor_idle hp, busy_eq_false.2 hp]
  exact congrArg _ (tick_idle hp)

/-- A poll while BUSY = 1 reads 1 in bit 0 and leaves WAIT, PENDING and the error bits as they are; one cycle passes. -/
theorem step_wait_busy {s : State} {rest : List HostAction} (hp : s.pending ≠ none) (hc : s.countdown ≠ 0)
    (h : s.host = .wait :: rest) :
    ∃ t, step s = .next t ∧ t.host = s.host ∧ t.pending = s.pending ∧ t.errs = s.errs ∧ t.countdown = s.countdown - 1 ∧
      t.resp = ⟨some (s.observed .status), false⟩ := by
  have hstep := step_wait (.inr hc) h
  rw [if_pos (busy_eq_true.2 hp), tick_busy (by exact hp)] at hstep
  exact ⟨_, hstep, rfl, rfl, rfl, rfl, rfl⟩

/-- WAIT polls while the cycles of the pending command pass, the command completes, and one more poll ends it. -/
theorem wait_ends (n : Nat) (s : State) (rest : List HostAction) (hp : s.pending ≠ none) (hc : s.countdown = n)
    (h : s.host = .wait :: rest) :
    ∃ t : State, Host.Core.run Sys2Proof.core (n + 2) s = .next t ∧ t.pending = none ∧ t.host = rest := by
  induction n generalizing s with
  | zero =>
    obtain ⟨i, hi⟩ := Option.ne_none_iff_exists'.1 hp
    have hreset : s.resetNext = false := by simp [State.resetNext, h]
    obtain ⟨⟨t, hexec, hpending, -, hhost⟩, hstep⟩ := completionIsOneStepWithoutError s i hi
    have hcompletion := (hstep hc hreset).trans hexec
    have hpoll := step_wait_idle hpending (hhost.trans h)
    exact ⟨_, (run_succ_of_step hcompletion 1).trans (run_succ_of_step hpoll 0), hpending, rfl⟩
  | succ n ih =>
    obtain ⟨t, hstep, hhost, hpending, -, hcountdown, -⟩ := step_wait_busy hp (by omega) h
    obtain ⟨u, hrun, hu⟩ := ih t (by rwa [hpending]) (by omega) (hhost.trans h)
    exact ⟨u, (run_succ_of_step hstep _).trans hrun, hu⟩

/-- Settles O10: the polls by what a read of STATUS answers, the end of the loop by induction on the cycles left. -/
theorem waitLoopTerminates : Obligations.WaitLoopTerminates := by
  unfold Obligations.WaitLoopTerminates
  intro s rest h
  refine ⟨fun hp => ⟨step_wait_idle hp h, ?_⟩, fun hp hc => ?_, fun hp => ?_⟩
  · rw [← observed_idle hp, getLsbD_observed_status_zero, busy_eq_false.2 hp]
  · obtain ⟨t, hstep, hhost, hpending, herrs, -, hresp⟩ := step_wait_busy hp hc h
    exact ⟨t, hstep, hhost, hpending, herrs, _, hresp, (getLsbD_observed_status_zero s).trans (busy_eq_true.2 hp)⟩
  · obtain ⟨t, hrun, ht⟩ := wait_ends s.countdown s rest hp rfl h
    exact ⟨_, t, Nat.le_refl _, hrun, ht⟩

/-! ## LOADDIN (log 19) -/

/-- DIN0 to DIN3 by number. -/
def dinReg : Nat → Reg
  | 0 => .din0
  | 1 => .din1
  | 2 => .din2
  | _ => .din3

/-- The word that LOADDIN writes to DIN g. -/
def dinGroup (bytes : List Byte) (g : Nat) : Word := HostProgram.packWord (bytes.drop (4 * g))

/-- The write of LOADDIN to DIN g, where the bytes need it. -/
def loadGroup (p : Params) (bytes : List Byte) (g : Nat) : List HostAction :=
  if 4 * g < bytes.length then HostProgram.wr p (dinReg g) (dinGroup bytes g) else []

theorem loadDin_eq (p : Params) (bytes : List Byte) :
    HostProgram.loadDin p bytes = (List.range 4).flatMap (loadGroup p bytes) := by
  simp [HostProgram.loadDin, List.range, List.range.loop, loadGroup, dinReg, dinGroup]

theorem dinReg_ne_cmd (a : Nat) : dinReg a ≠ .cmd := by unfold dinReg; split <;> nofun

theorem writeReg_dinReg_errs (s : State) (a : Nat) (v : Word) : (s.writeReg (dinReg a) v).errs = s.errs := by
  unfold dinReg
  split <;> rfl

/-- An accepted write to DIN a stores its word there and leaves the other DIN registers as they are. -/
theorem dinWord_writeReg_dinReg (s : State) (v : Word) {a g : Nat} (ha : a < 4) (hg : g < 4) :
    (s.writeReg (dinReg a) v).dinWord g = if g = a then v else s.dinWord g := by
  obtain rfl | rfl | rfl | rfl : a = 0 ∨ a = 1 ∨ a = 2 ∨ a = 3 := by omega
  all_goals obtain rfl | rfl | rfl | rfl : g = 0 ∨ g = 1 ∨ g = 2 ∨ g = 3 := by omega
  all_goals rfl

/-- Byte j of a packed word (30_encoding.md R83). -/
theorem packWord_byte (bytes : List Byte) {j : Nat} (hj : j < 4) :
    (HostProgram.packWord bytes).extractLsb' (8 * j) 8 = bytes.getD j 0 := by
  rw [HostProgram.packWord]
  obtain rfl | rfl | rfl | rfl : j = 0 ∨ j = 1 ∨ j = 2 ∨ j = 3 := by omega
  · rw [BitVec.extractLsb'_append_eq_right]
  · rw [BitVec.extractLsb'_append_eq_of_le (by decide), BitVec.extractLsb'_append_eq_right]
  · rw [BitVec.extractLsb'_append_eq_of_le (by decide), BitVec.extractLsb'_append_eq_of_le (by decide),
      BitVec.extractLsb'_append_eq_right]
  · rw [BitVec.extractLsb'_append_eq_of_le (by decide), BitVec.extractLsb'_append_eq_of_le (by decide),
      BitVec.extractLsb'_append_eq_left]

/-- One group of LOADDIN: its word is in DIN a if the bytes need it, and nothing else of DIN is touched. -/
theorem run_loadGroup {bytes : List Byte} {rest : List HostAction} {s : State} {a : Nat} (ha : a < 4)
    (hp : s.pending = none) (h : s.host = loadGroup s.params bytes a ++ rest) :
    ∃ (k : Nat) (t : State), (∀ n, Host.Core.run Sys2Proof.core (n + k) s = Host.Core.run Sys2Proof.core n t) ∧ t.host = rest ∧
      t.params = s.params ∧ t.pending = none ∧ t.errs = s.errs ∧
      ∀ g < 4, t.dinWord g = if g = a ∧ 4 * a < bytes.length then dinGroup bytes a else s.dinWord g := by
  by_cases hneed : 4 * a < bytes.length
  · rw [loadGroup, if_pos hneed] at h
    have hwrite : s.NextWrite (dinReg a).offset 4 (dinGroup bytes a) rest := h
    obtain ⟨hparams, hpending, hhost⟩ := writeReg_frame (s.answered rest none false) (dinReg a) (dinGroup bytes a)
    refine ⟨1, _, run_succ_of_step (step_writeReg hp hwrite (dinReg_ne_cmd a)), hhost, hparams, hpending.trans hp,
      writeReg_dinReg_errs _ a _, fun g hg => ?_⟩
    rw [dinWord_writeReg_dinReg _ _ ha hg]
    simp only [hneed, and_true]
    rfl
  · rw [loadGroup, if_neg hneed] at h
    exact ⟨0, s, fun _ => rfl, h, rfl, hp, rfl, fun g _ => by simp [hneed]⟩

/-- Some of LOADDIN's groups: each one among them that the bytes need is in its DIN register afterwards, and so is each
one that was before. -/
theorem run_loadGroups (bytes : List Byte) (rest : List HostAction) (gs : List Nat) (s : State) (hgs : ∀ a ∈ gs, a < 4)
    (hp : s.pending = none) (h : s.host = gs.flatMap (loadGroup s.params bytes) ++ rest) :
    ∃ (k : Nat) (t : State), Host.Core.run Sys2Proof.core k s = .next t ∧ t.host = rest ∧ t.errs = s.errs ∧
      ∀ g < 4, 4 * g < bytes.length → g ∈ gs ∨ s.dinWord g = dinGroup bytes g → t.dinWord g = dinGroup bytes g := by
  induction gs generalizing s with
  | nil => exact ⟨0, s, rfl, h, rfl, fun g _ _ hg => hg.resolve_left List.not_mem_nil⟩
  | cons a gs ih =>
    obtain ⟨ha, hgs'⟩ := List.forall_mem_cons.1 hgs
    rw [List.flatMap_cons, List.append_assoc] at h
    obtain ⟨j, u, hfirst, hhost, hparams, hpending, herrs, hwords⟩ := run_loadGroup ha hp h
    obtain ⟨k, t, hrun, hrest, herrs', hwords'⟩ := ih u hgs' hpending (by rw [hhost, hparams])
    refine ⟨k + j, t, (hfirst k).trans hrun, hrest, herrs'.trans herrs, fun g hg hneed hor => hwords' g hg hneed ?_⟩
    by_cases hga : g = a
    · subst hga
      exact .inr ((hwords g hg).trans (if_pos ⟨rfl, hneed⟩))
    · rw [hwords g hg, if_neg fun hand => hga hand.1]
      exact hor.imp_left fun hmem => (List.mem_cons.1 hmem).resolve_left hga

/-- Settles O32: after the four groups, byte i of the window is byte i mod 4 of the word in DIN(i/4). -/
theorem loadDinPresentsTheBytes : Obligations.LoadDinPresentsTheBytes := by
  unfold Obligations.LoadDinPresentsTheBytes
  intro s bytes rest hp hlen h
  rw [loadDin_eq] at h
  obtain ⟨k, t, hrun, hrest, herrs, hwords⟩ :=
    run_loadGroups bytes rest (List.range 4) s (fun _ => List.mem_range.1) hp h
  have hlength : (t.window.take bytes.length).length = bytes.length := by
    rw [List.length_take, State.window, List.length_map, List.length_range, Nat.min_eq_left hlen]
  refine ⟨k, t, hrun, hrest, List.ext_getElem hlength fun i _ hi => ?_, herrs⟩
  have hword : t.dinWord (i / 4) = dinGroup bytes (i / 4) :=
    hwords (i / 4) (by omega) (by omega) (.inl (List.mem_range.2 (by omega)))
  have hbyte : t.dinByte i = bytes[i] :=
    calc t.dinByte i
      _ = (dinGroup bytes (i / 4)).extractLsb' (8 * (i % 4)) 8 := by rw [← hword]; rfl
      _ = (bytes.drop (4 * (i / 4))).getD (i % 4) 0 := packWord_byte _ (Nat.mod_lt i (by decide))
      _ = bytes.getD i 0 := by
        rw [List.getD_eq_getElem?_getD, List.getElem?_drop, Nat.div_add_mod, List.getD_eq_getElem?_getD]
      _ = bytes[i] := (List.getElem_eq_getD 0).symm
  simpa only [State.window, List.getElem_take, List.getElem_map, List.getElem_range] using hbyte

end Sys2Proof.Machine
end

section
/-! Proofs, part 7. The engines on any tables: the register in the order its bits leave it, bit_step as a linear map,
and the table and slicing steps over tables that hold bitwise results (41_bitwise_engine.md R140, R146;
42_table_engine.md R152; 43_slice_engine.md R165). -/

namespace Sys2Proof.Machine

/-! ## The register in the order the rounds shift its bits out -/

/-- Bit i of a register as the rounds shift it out: from the low end for Reflected, from the top for NonReflected
(41_bitwise_engine.md R140). -/
def outBit {w : Nat} (refl : Bool) (x : BitVec w) (i : Nat) : Bool := if refl then x.getLsbD i else x.getMsbD i

/-- The register with its first n bits shifted out, nothing reduced. -/
def shiftOut {w : Nat} (refl : Bool) (n : Nat) (x : BitVec w) : BitVec w := if refl then x >>> n else x <<< n

/-- A byte at the place of register byte j, 0 elsewhere: what `foldStream` and `bitStep` XOR into the register. -/
def placeByte {w : Nat} (refl : Bool) (b : Byte) (j : Nat) : BitVec w := b.setWidth w <<< bytePos w refl j

theorem eq_of_outBit_eq {w : Nat} {refl : Bool} {x y : BitVec w}
    (h : ∀ i, outBit refl x i = outBit refl y i) : x = y := by
  cases refl with
  | false => exact BitVec.eq_of_getMsbD_eq fun i _ => h i
  | true => exact BitVec.eq_of_getLsbD_eq fun i _ => h i

@[simp] theorem outBit_zero {w : Nat} (refl : Bool) (i : Nat) : outBit refl 0#w i = false := by
  cases refl <;> simp [outBit]

@[simp] theorem outBit_xor {w : Nat} (refl : Bool) (x y : BitVec w) (i : Nat) :
    outBit refl (x ^^^ y) i = (outBit refl x i ^^ outBit refl y i) := by
  cases refl <;> simp [outBit]

/-- Past its W bits a register shifts out zeros. -/
theorem outBit_of_le {w : Nat} (refl : Bool) (x : BitVec w) {i : Nat} (h : w ≤ i) : outBit refl x i = false := by
  cases refl with
  | false => exact BitVec.getMsbD_of_ge _ _ h
  | true => exact BitVec.getLsbD_of_ge _ _ h

@[simp] theorem outBit_shiftOut {w : Nat} (refl : Bool) (n : Nat) (x : BitVec w) (i : Nat) :
    outBit refl (shiftOut refl n x) i = outBit refl x (n + i) := by
  cases refl with
  | false =>
    rw [Nat.add_comm]
    simp [outBit, shiftOut, BitVec.getMsbD_shiftLeft]
  | true => simp [outBit, shiftOut]

theorem shiftOut_xor {w : Nat} (refl : Bool) (n : Nat) (x y : BitVec w) :
    shiftOut refl n (x ^^^ y) = shiftOut refl n x ^^^ shiftOut refl n y :=
  eq_of_outBit_eq (refl := refl) (by simp)

theorem shiftOut_shiftOut {w : Nat} (refl : Bool) (m n : Nat) (x : BitVec w) :
    shiftOut refl n (shiftOut refl m x) = shiftOut refl (m + n) x :=
  eq_of_outBit_eq (refl := refl) (by simp [Nat.add_assoc])

/-- The bits of a placed byte leave the register right after those of the j register bytes before it. -/
theorem outBit_placeByte {w : Nat} (refl : Bool) (b : Byte) {j : Nat} (hj : j < w / 8) (i : Nat) :
    outBit refl (placeByte refl b j : BitVec w) i = (decide (8 * j ≤ i) && outBit refl b (i - 8 * j)) := by
  cases refl with
  | false =>
    simp only [outBit, placeByte, bytePos, BitVec.getMsbD_eq_getLsbD, BitVec.getLsbD_shiftLeft, BitVec.getLsbD_setWidth,
      Bool.false_eq_true, if_false]
    grind
  | true =>
    simp only [outBit, placeByte, bytePos, BitVec.getLsbD_shiftLeft, BitVec.getLsbD_setWidth, if_true]
    grind

/-- The bits of register byte j are eight of the register's, in the order in which they leave it. -/
theorem outBit_registerByte {w : Nat} (refl : Bool) (x : BitVec w) {j : Nat} (hj : j < w / 8) (i : Nat) :
    outBit refl (registerByte refl x j) i = (decide (i < 8) && outBit refl x (8 * j + i)) := by
  cases refl with
  | false =>
    simp only [outBit, registerByte, bytePos, BitVec.getMsbD_eq_getLsbD, BitVec.getLsbD_ushiftRight,
      BitVec.getLsbD_setWidth, Bool.false_eq_true, if_false]
    grind
  | true =>
    simp only [outBit, registerByte, bytePos, BitVec.getLsbD_ushiftRight, BitVec.getLsbD_setWidth, if_true]

/-! ### Register bytes -/

theorem registerByte_xor {w : Nat} (refl : Bool) (x y : BitVec w) (j : Nat) :
    registerByte refl (x ^^^ y) j = registerByte refl x j ^^^ registerByte refl y j := by
  simp [registerByte, BitVec.ushiftRight_xor_distrib, BitVec.setWidth_xor]

theorem placeByte_xor {w : Nat} (refl : Bool) (a b : Byte) (j : Nat) :
    (placeByte refl (a ^^^ b) j : BitVec w) = placeByte refl a j ^^^ placeByte refl b j := by
  simp [placeByte, BitVec.shiftLeft_xor_distrib, BitVec.setWidth_xor]

theorem registerByte_placeByte {w : Nat} (refl : Bool) (b : Byte) {i j : Nat} (hi : i < w / 8) (hj : j < w / 8) :
    registerByte refl (placeByte refl b i : BitVec w) j = if i = j then b else 0#8 := by
  refine eq_of_outBit_eq (refl := refl) fun k => ?_
  rw [outBit_registerByte refl _ hj, outBit_placeByte refl b hi]
  split
  next h =>
    subst h
    by_cases hk : k < 8
    · simp [hk]
    · simp [hk, outBit_of_le refl b (Nat.le_of_not_lt hk)]
  next h =>
    by_cases hk : k < 8
    · by_cases hle : 8 * i ≤ 8 * j + k
      · simp [outBit_of_le refl b (show 8 ≤ 8 * j + k - 8 * i by omega)]
      · simp [hle]
    · simp [hk]

/-- A byte placed among the first n leaves the register with them. -/
theorem shiftOut_placeByte {w : Nat} (refl : Bool) (b : Byte) {j n : Nat} (hj : j < w / 8) (hn : j < n) :
    shiftOut refl (8 * n) (placeByte refl b j : BitVec w) = 0#w := by
  refine eq_of_outBit_eq (refl := refl) fun k => ?_
  rw [outBit_shiftOut, outBit_placeByte refl b hj, outBit_of_le refl b (by omega), Bool.and_false, outBit_zero]

/-- Register byte j leaves the register after the j before it; after the last one come zeros. -/
theorem registerByte_shiftOut {w : Nat} (refl : Bool) (x : BitVec w) (hw : 8 ≤ w) (hbytes : w % 8 = 0) (j : Nat) :
    registerByte refl (shiftOut refl (8 * j) x) 0 = if j < w / 8 then registerByte refl x j else 0#8 := by
  refine eq_of_outBit_eq (refl := refl) fun k => ?_
  rw [outBit_registerByte refl _ (by omega), outBit_shiftOut]
  split
  next hj => rw [outBit_registerByte refl x hj, Nat.mul_zero, Nat.zero_add]
  next hj => rw [outBit_of_le refl x (by omega), outBit_zero, Bool.and_false]

theorem unconsumed_eq {w : Nat} (refl : Bool) (n : Nat) (x : BitVec w) :
    unconsumed refl n x = shiftOut refl (8 * n) x := by
  unfold unconsumed
  split
  next => rfl
  next h =>
    refine eq_of_outBit_eq (refl := refl) fun i => ?_
    rw [outBit_shiftOut, outBit_of_le refl x (by omega)]
    exact outBit_zero refl i

/-! ## The rounds and bit_step (41_bitwise_engine.md R140, R146). -/

/-- The polynomial a round XORs in: PN, or PR for Reflected. -/
def roundPoly {w : Nat} (refl : Bool) (pn : BitVec w) : BitVec w := if refl then rev pn else pn

/-- One of the eight rounds of bit_step, in either bit order. -/
def bitRound {w : Nat} (refl : Bool) (pn : BitVec w) : BitVec w → BitVec w :=
  if refl then roundDown (rev pn) else roundUp pn

/-- A round shifts one bit out, and reduces if that bit is set. -/
theorem bitRound_eq {w : Nat} (refl : Bool) (pn c : BitVec w) :
    bitRound refl pn c = shiftOut refl 1 c ^^^ if outBit refl c 0 then roundPoly refl pn else 0 := by
  cases refl with
  | false =>
    show roundUp pn c = c <<< 1 ^^^ if c.msb then pn else 0
    rw [roundUp, BitVec.msb_eq_getLsbD_last]
    split <;> simp
  | true =>
    show roundDown (rev pn) c = c >>> 1 ^^^ if c.getLsbD 0 then rev pn else 0
    rw [roundDown]
    split <;> simp

theorem bitRound_xor {w : Nat} (refl : Bool) (pn x y : BitVec w) :
    bitRound refl pn (x ^^^ y) = bitRound refl pn x ^^^ bitRound refl pn y := by
  have reduce (a b : Bool) : (if (a ^^ b) then roundPoly refl pn else 0) =
      (if a then roundPoly refl pn else 0) ^^^ (if b then roundPoly refl pn else 0) := by
    cases a <;> cases b <;> simp
  rw [bitRound_eq, bitRound_eq, bitRound_eq, shiftOut_xor, outBit_xor, reduce]
  ac_rfl

theorem repeatRound_xor {w : Nat} {f : BitVec w → BitVec w} (hf : ∀ x y, f (x ^^^ y) = f x ^^^ f y) (n : Nat)
    (x y : BitVec w) : repeatRound f n (x ^^^ y) = repeatRound f n x ^^^ repeatRound f n y := by
  induction n generalizing x y with
  | zero => rfl
  | succ n ih => rw [repeatRound, hf, ih]; rfl

theorem repeatRound_add {w : Nat} (f : BitVec w → BitVec w) (m n : Nat) (x : BitVec w) :
    repeatRound f (m + n) x = repeatRound f n (repeatRound f m x) := by
  induction m generalizing x with
  | zero => rw [Nat.zero_add]; rfl
  | succ m ih => rw [Nat.succ_add]; exact ih (f x)

/-- Rounds that shift out zeros only are a shift. -/
theorem repeatRound_of_clear {w : Nat} {refl : Bool} (pn : BitVec w) {n : Nat} {x : BitVec w}
    (h : ∀ i < n, outBit refl x i = false) : repeatRound (bitRound refl pn) n x = shiftOut refl n x := by
  induction n generalizing x with
  | zero => exact eq_of_outBit_eq (refl := refl) (by simp [repeatRound])
  | succ n ih =>
    have hround : bitRound refl pn x = shiftOut refl 1 x := by simp [bitRound_eq, h 0]
    have hrest : ∀ i < n, outBit refl (shiftOut refl 1 x) i = false := fun i hi => by
      rw [outBit_shiftOut]
      exact h (1 + i) (by omega)
    rw [repeatRound, hround, ih hrest, shiftOut_shiftOut, Nat.add_comm]

theorem bitStep_eq {w : Nat} (refl : Bool) (pn c : BitVec w) (b : Byte) :
    bitStep refl pn c b = repeatRound (bitRound refl pn) 8 (c ^^^ placeByte refl b 0) := by
  cases refl <;> simp [bitStep, bitRound, placeByte, bytePos]

/-- bit_step is linear over XOR (41_bitwise_engine.md R146). -/
theorem bitStep_xor {w : Nat} (refl : Bool) (pn x y : BitVec w) (a b : Byte) :
    bitStep refl pn (x ^^^ y) (a ^^^ b) = bitStep refl pn x a ^^^ bitStep refl pn y b := by
  rw [bitStep_eq, bitStep_eq, bitStep_eq, ← repeatRound_xor (bitRound_xor refl pn), placeByte_xor]
  congr 1
  ac_rfl

/-- A placed byte and the byte that enters meet in the first register byte. -/
theorem bitStep_placeByte {w : Nat} (refl : Bool) (pn : BitVec w) (a b : Byte) :
    bitStep refl pn (placeByte refl a 0) b = bitStep refl pn 0 (a ^^^ b) := by
  rw [bitStep_eq, bitStep_eq, placeByte_xor]
  exact congrArg _ BitVec.zero_xor.symm

/-- Where the first register byte is 0, bit_step moves the others up. -/
theorem bitStep_of_clear {w : Nat} {refl : Bool} (pn : BitVec w) {x : BitVec w}
    (h : ∀ i < 8, outBit refl x i = false) : bitStep refl pn x 0#8 = shiftOut refl 8 x := by
  have hzero : (placeByte refl 0#8 0 : BitVec w) = 0#w := by simp [placeByte]
  rw [bitStep_eq, hzero, BitVec.xor_zero, repeatRound_of_clear pn h]

/-- The table step: the first register byte leaves and is reduced with the entering byte, the others move up. -/
theorem bitStep_eq_shiftOut {w : Nat} (hw : 8 ≤ w) (refl : Bool) (pn c : BitVec w) (b : Byte) :
    bitStep refl pn c b = shiftOut refl 8 c ^^^ bitStep refl pn 0 (registerByte refl c 0 ^^^ b) := by
  have h0 : 0 < w / 8 := by omega
  obtain ⟨p, hp⟩ : ∃ p : BitVec w, p = placeByte refl (registerByte refl c 0) 0 := ⟨_, rfl⟩
  have hclear : ∀ i < 8, outBit refl (c ^^^ p) i = false := fun i hi => by
    simp [hp, outBit_placeByte refl _ h0, outBit_registerByte refl c h0, hi]
  have hgone : shiftOut refl 8 p = 0#w := hp ▸ shiftOut_placeByte refl _ h0 Nat.one_pos
  calc bitStep refl pn c b
    _ = bitStep refl pn (c ^^^ p ^^^ p) (0#8 ^^^ b) := by
      rw [BitVec.xor_assoc, BitVec.xor_self, BitVec.xor_zero, BitVec.zero_xor]
    _ = bitStep refl pn (c ^^^ p) 0#8 ^^^ bitStep refl pn p b := bitStep_xor refl pn _ _ _ _
    _ = shiftOut refl 8 c ^^^ bitStep refl pn 0 (registerByte refl c 0 ^^^ b) := by
      rw [bitStep_of_clear pn hclear, shiftOut_xor, hgone, BitVec.xor_zero, hp, bitStep_placeByte]

/-! ## The bytes of a stream (41_bitwise_engine.md R142, R145). -/

theorem updBit_append {w : Nat} (refl : Bool) (pn c : BitVec w) (xs ys : List Byte) :
    updBit refl pn c (xs ++ ys) = updBit refl pn (updBit refl pn c xs) ys := by
  induction xs generalizing c with
  | nil => rfl
  | cons b bs ih => exact ih _

/-- What is XORed into the running value goes through the bytes left as through zero bytes. -/
theorem updBit_xor {w : Nat} (refl : Bool) (pn x y : BitVec w) (bs : List Byte) :
    updBit refl pn (x ^^^ y) bs = updBit refl pn x bs ^^^ updBit refl pn y (List.replicate bs.length 0) := by
  induction bs generalizing x y with
  | nil => rfl
  | cons b bs ih =>
    have hstep : bitStep refl pn (x ^^^ y) b = bitStep refl pn x b ^^^ bitStep refl pn y 0 := by
      rw [← bitStep_xor]
      exact congrArg _ BitVec.xor_zero.symm
    rw [updBit, hstep, ih]
    rfl

/-- The bitwise result of a byte v and k zero bytes after it: what T[k][v] is to hold (44_table_builder.md R184). -/
def bitwiseEntry {w : Nat} (refl : Bool) (pn : BitVec w) (k : Nat) (v : Byte) : BitVec w :=
  updBit refl pn 0 (v :: List.replicate k 0)

/-- What a fold over XOR starts from can be added at its end. -/
theorem foldl_xor_init {w : Nat} {ι : Type} (g : ι → BitVec w) (l : List ι) (x y : BitVec w) :
    l.foldl (fun r j => r ^^^ g j) (x ^^^ y) = l.foldl (fun r j => r ^^^ g j) x ^^^ y := by
  induction l generalizing x with
  | nil => rfl
  | cons j l ih =>
    rw [List.foldl_cons, List.foldl_cons, ← ih]
    congr 1
    ac_rfl

theorem foldl_xor_congr {w : Nat} {ι : Type} {g g' : ι → BitVec w} {l : List ι} (h : ∀ j ∈ l, g j = g' j)
    (x : BitVec w) : l.foldl (fun r j => r ^^^ g j) x = l.foldl (fun r j => r ^^^ g' j) x := by
  induction l generalizing x with
  | nil => rfl
  | cons j l ih =>
    rw [List.foldl_cons, List.foldl_cons, h j List.mem_cons_self]
    exact ih (fun i hi => h i (List.mem_cons_of_mem j hi)) _

/-- Each byte of a group contributes the table entry of the register byte it meets, as far from the end as it stands;
the rest of the register is shifted (43_slice_engine.md R165). -/
theorem updBit_eq_foldl {w : Nat} (hw : 8 ≤ w) (refl : Bool) (pn c : BitVec w) (bs : List Byte) :
    updBit refl pn c bs = (List.range bs.length).foldl (fun r j => r ^^^
      bitwiseEntry refl pn (bs.length - 1 - j) (registerByte refl (shiftOut refl (8 * j) c) 0 ^^^ streamByte bs j))
      (shiftOut refl (8 * bs.length) c) := by
  induction bs generalizing c with
  | nil => cases refl <;> simp [updBit, shiftOut]
  | cons b bs ih =>
    have hshift (j : Nat) : shiftOut refl (8 * j) (shiftOut refl 8 c) = shiftOut refl (8 * (j + 1)) c := by
      rw [shiftOut_shiftOut, Nat.mul_succ, Nat.add_comm]
    have hfirst : shiftOut refl (8 * 0) c = c := eq_of_outBit_eq (refl := refl) (by simp)
    have hplace (j : Nat) : (b :: bs).length - 1 - (j + 1) = bs.length - 1 - j := by
      rw [List.length_cons]
      omega
    rw [updBit, bitStep_eq_shiftOut hw, updBit_xor, ih, List.length_cons, List.range_succ_eq_map, List.foldl_cons,
      List.foldl_map, foldl_xor_init, hfirst]
    simp only [hshift, ← List.length_cons (a := b), Nat.succ_eq_add_one, hplace]
    rfl

theorem foldStream_succ {w : Nat} (refl : Bool) (c : BitVec w) (bs : List Byte) (m : Nat) :
    foldStream refl c bs (m + 1) = foldStream refl c bs m ^^^ placeByte refl (streamByte bs m) m := by
  rw [foldStream, List.range_succ, List.foldl_append]
  rfl

theorem registerByte_foldStream {w : Nat} (refl : Bool) (c : BitVec w) (bs : List Byte) {m j : Nat} (hm : m ≤ w / 8)
    (hj : j < w / 8) :
    registerByte refl (foldStream refl c bs m) j =
      registerByte refl c j ^^^ if j < m then streamByte bs j else 0#8 := by
  induction m with
  | zero => simp [foldStream]
  | succ m ih =>
    rw [foldStream_succ, registerByte_xor, ih (by omega), registerByte_placeByte refl _ (by omega) hj]
    obtain hlt | rfl | hgt := Nat.lt_trichotomy j m
    · simp [hlt, Nat.lt_succ_of_lt hlt, Nat.ne_of_gt hlt]
    · simp
    · simp [Nat.not_lt.2 hgt, Nat.not_lt_of_gt hgt, Nat.ne_of_lt hgt]

theorem shiftOut_foldStream {w : Nat} (refl : Bool) (c : BitVec w) (bs : List Byte) {m n : Nat} (hm : m ≤ w / 8)
    (hn : m ≤ n) : shiftOut refl (8 * n) (foldStream refl c bs m) = shiftOut refl (8 * n) c := by
  induction m with
  | zero => rfl
  | succ m ih =>
    rw [foldStream_succ, shiftOut_xor, ih (by omega) (by omega), shiftOut_placeByte refl _ (by omega) (by omega),
      BitVec.xor_zero]

/-- The index of stream byte j is the register byte it meets, where the bytes before it have left the register. -/
theorem sliceIndex_foldStream {w : Nat} (hw : 8 ≤ w) (hbytes : w % 8 = 0) (refl : Bool) (c : BitVec w) (bs : List Byte)
    {n j : Nat} (hj : j < n) :
    sliceIndex refl (foldStream refl c bs (min n (w / 8))) bs j =
      registerByte refl (shiftOut refl (8 * j) c) 0 ^^^ streamByte bs j := by
  rw [sliceIndex, registerByte_shiftOut refl c hw hbytes]
  split
  next hin => rw [registerByte_foldStream refl c bs (Nat.min_le_right _ _) hin, if_pos (by omega)]
  next => rw [BitVec.zero_xor]

/-- slice_step is the bitwise update over its group, for tables that hold what the chained tables hold
(43_slice_engine.md R165). -/
theorem sliceStep_eq_updBit {w : Nat} (hw : 8 ≤ w) (hbytes : w % 8 = 0) (refl : Bool) (pn c : BitVec w)
    {t : Nat → Byte → BitVec w} {n : Nat} (ht : ∀ k v, k < n → t k v = bitwiseEntry refl pn k v) {bs : List Byte}
    (hlen : bs.length = n) : sliceStep refl t n c bs = updBit refl pn c bs := by
  subst hlen
  rw [updBit_eq_foldl hw, sliceStep, unconsumed_eq,
    shiftOut_foldStream refl c bs (Nat.min_le_right _ _) (Nat.min_le_left _ _)]
  refine foldl_xor_congr (fun j hj => ?_) _
  have hjn := List.mem_range.1 hj
  rw [ht _ _ (by omega), sliceIndex_foldStream hw hbytes refl c bs hjn]

/-- tbl_step is bit_step, for a base table that holds what bit_step makes of each byte (42_table_engine.md R152). -/
theorem tblStep_eq_bitStep {w : Nat} (hw : 8 ≤ w) (refl : Bool) (pn c : BitVec w) {t0 : Byte → BitVec w}
    (ht : ∀ v, t0 v = bitStep refl pn 0 v) (b : Byte) : tblStep refl t0 c b = bitStep refl pn c b := by
  rw [bitStep_eq_shiftOut hw, ← ht, tblStep]
  split
  next h =>
    subst h
    have hgone : shiftOut refl 8 c = 0#8 := eq_of_outBit_eq (refl := refl) fun i => by
      rw [outBit_shiftOut, outBit_of_le refl c (by omega), outBit_zero]
    have hbyte : registerByte refl c 0 = lowByte c := by cases refl <;> simp [registerByte, bytePos, lowByte]
    rw [hgone, hbyte, BitVec.zero_xor]
  next => cases refl <;> rfl

theorem updTbl_eq_updBit {w : Nat} (hw : 8 ≤ w) (refl : Bool) (pn c : BitVec w) {t0 : Byte → BitVec w}
    (ht : ∀ v, t0 v = bitStep refl pn 0 v) (bs : List Byte) : updTbl refl t0 c bs = updBit refl pn c bs := by
  induction bs generalizing c with
  | nil => rfl
  | cons b bs ih => rw [updTbl, updBit, tblStep_eq_bitStep hw refl pn c ht, ih]

theorem sliceGroups_eq_updBit {w : Nat} (hw : 8 ≤ w) (hbytes : w % 8 = 0) (refl : Bool) (pn c : BitVec w)
    {t : Nat → Byte → BitVec w} {n : Nat} (hn : 0 < n) (ht : ∀ k v, k < n → t k v = bitwiseEntry refl pn k v)
    (fuel : Nat) (bs : List Byte) : sliceGroups refl t n fuel c bs = updBit refl pn c bs := by
  have hrest (c : BitVec w) (bs : List Byte) : updTbl refl (t 0) c bs = updBit refl pn c bs :=
    updTbl_eq_updBit hw refl pn c (fun v => ht 0 v hn) bs
  induction fuel generalizing c bs with
  | zero => exact hrest c bs
  | succ fuel ih =>
    rw [sliceGroups]
    split
    next hle =>
      rw [sliceStep_eq_updBit hw hbytes refl pn c ht (List.length_take_of_le hle), ih, ← updBit_append,
        List.take_append_drop]
    next => exact hrest c bs

/-- upd_slice is upd_bit, for tables that hold what the chained tables hold (43_slice_engine.md R165). -/
theorem updSlice_eq_updBit {w : Nat} (hw : 8 ≤ w) (hbytes : w % 8 = 0) (refl : Bool) (pn c : BitVec w)
    {t : Nat → Byte → BitVec w} {n : Nat} (hn : 0 < n) (ht : ∀ k v, k < n → t k v = bitwiseEntry refl pn k v)
    (bs : List Byte) : updSlice refl t n c bs = updBit refl pn c bs :=
  sliceGroups_eq_updBit hw hbytes refl pn c hn ht bs.length bs

end Sys2Proof.Machine
end

section
/-! Proofs, part 8. What the builder builds holds the bitwise results, and so the engines agree on a constructed
parameter set (44_table_builder.md R180 to R184; 40_parameter_set.md R114). -/

namespace Sys2Proof.Machine

/-! ## The base table (44_table_builder.md R180 to R182). -/

/-- One round of a register whose first bit alone is set leaves the polynomial. -/
theorem bitRound_of_first {w : Nat} {refl : Bool} (pn : BitVec w) {x : BitVec w}
    (hx : ∀ i, outBit refl x i = decide (i = 0)) : bitRound refl pn x = roundPoly refl pn := by
  have hgone : shiftOut refl 1 x = 0#w := eq_of_outBit_eq (refl := refl) fun i => by
    rw [outBit_shiftOut, hx, outBit_zero]
    exact decide_eq_false (by omega)
  rw [bitRound_eq, hx, hgone, BitVec.zero_xor]
  rfl

/-- A register whose bit k alone is set: k rounds bring the bit out, the next leaves the polynomial, the others go on
with it. -/
theorem repeatRound_of_single {w : Nat} {refl : Bool} (pn : BitVec w) {k : Nat} {x : BitVec w}
    (hx : ∀ i, outBit refl x i = decide (i = k)) {m n : Nat} (hm : m = k + (n + 1)) :
    repeatRound (bitRound refl pn) m x = repeatRound (bitRound refl pn) n (roundPoly refl pn) := by
  have hfirst : ∀ i, outBit refl (shiftOut refl k x) i = decide (i = 0) := fun i => by
    rw [outBit_shiftOut, hx, decide_eq_decide]
    omega
  have hclear : ∀ i < k, outBit refl x i = false := fun i hi => by
    rw [hx]
    exact decide_eq_false (by omega)
  rw [hm, repeatRound_add, repeatRound_of_clear pn hclear, repeatRound, bitRound_of_first pn hfirst]

theorem outBit_twoPow {w : Nat} (refl : Bool) {i : Nat} (hi : i < w) (j : Nat) :
    outBit refl (BitVec.twoPow w i) j = decide (j = if refl then i else w - i - 1) := by
  cases refl with
  | false => simp [outBit, BitVec.getMsbD_twoPow, hi]
  | true => simp [outBit, BitVec.getLsbD_twoPow, hi, eq_comm]

/-- bit_step of a power of two, by the place at which its one bit leaves the byte. -/
theorem bitStep_twoPow {w : Nat} (hw : 8 ≤ w) (refl : Bool) (pn : BitVec w) {i : Nat} (hi : i < 8) :
    bitStep refl pn 0 (BitVec.twoPow 8 i) =
      repeatRound (bitRound refl pn) (if refl then 7 - i else i) (roundPoly refl pn) := by
  have hsingle (j : Nat) : outBit refl (0#w ^^^ placeByte refl (BitVec.twoPow 8 i) 0) j =
      decide (j = if refl then i else 8 - i - 1) := by
    rw [outBit_xor, outBit_zero, outBit_placeByte refl _ (by omega), outBit_twoPow refl hi]
    simp
  rw [bitStep_eq]
  exact repeatRound_of_single pn hsingle (by cases refl <;> simp <;> omega)

theorem seedsUp_eq {w : Nat} (pn p : BitVec w) (n : Nat) :
    seedsUp pn n p = (List.range n).map fun i => repeatRound (roundUp pn) i p := by
  induction n generalizing p with
  | zero => rfl
  | succ n ih => rw [seedsUp, ih, List.range_succ_eq_map, List.map_cons, List.map_map]; rfl

theorem seedsDown_eq {w : Nat} (pr p : BitVec w) (n : Nat) (acc : List (BitVec w)) :
    seedsDown pr n p acc = ((List.range n).map fun i => repeatRound (roundDown pr) i p).reverse ++ acc := by
  induction n generalizing p acc with
  | zero => rfl
  | succ n ih =>
    rw [seedsDown, ih, List.range_succ_eq_map, List.map_cons, List.map_map, List.reverse_cons, List.append_assoc]
    rfl

/-- The seeds are what bit_step makes of the powers of two. -/
theorem seeds_eq {w : Nat} (hw : 8 ≤ w) (refl : Bool) (pn : BitVec w) :
    seeds refl pn = (List.range 8).map fun i => bitStep refl pn 0 (BitVec.twoPow 8 i) := by
  rw [List.map_congr_left fun i hi => bitStep_twoPow hw refl pn (List.mem_range.1 hi)]
  cases refl with
  | false => exact seedsUp_eq pn pn 8
  | true => exact (seedsDown_eq (rev pn) (rev pn) 8 []).trans rfl

/-- A power of two meets no bit of a smaller index. -/
theorem twoPow_xor_ofNat {k j : Nat} (hj : j < 2 ^ k) :
    BitVec.twoPow 8 k ^^^ BitVec.ofNat 8 j = BitVec.ofNat 8 (2 ^ k + j) := by
  have hbits (i : Nat) : (2 ^ k ^^^ j).testBit i = (2 ^ k + j).testBit i := by
    have hsum := Nat.testBit_two_pow_mul_add 1 hj i
    rw [Nat.mul_one] at hsum
    rw [hsum, Nat.testBit_xor, Nat.testBit_two_pow]
    split
    next hlt => simp [Nat.ne_of_gt hlt]
    next hge =>
      have hle : 2 ^ k ≤ 2 ^ i := Nat.pow_le_pow_right (by decide) (Nat.le_of_not_lt hge)
      have hhigh : j.testBit i = false := Nat.testBit_lt_two_pow (Nat.lt_of_lt_of_le hj hle)
      have hone : Nat.testBit 1 (i - k) = decide (0 = i - k) := Nat.testBit_two_pow (n := 0)
      rw [hhigh, hone, Bool.xor_false, decide_eq_decide]
      omega
  have hpow : BitVec.twoPow 8 k = BitVec.ofNat 8 (2 ^ k) := BitVec.eq_of_toNat_eq (by simp [BitVec.toNat_twoPow])
  rw [hpow, ← BitVec.ofNat_xor, Nat.eq_of_testBit_eq hbits]

/-- The doubling trick: over the values of a linear f at the powers of two it lays out f itself. -/
theorem fillTable_eq {w : Nat} {f : Byte → BitVec w} (hf : ∀ a b, f (a ^^^ b) = f a ^^^ f b) (k : Nat) :
    fillTable ((List.range k).map fun i => f (BitVec.twoPow 8 i)) =
      (List.range (2 ^ k)).map fun v => f (BitVec.ofNat 8 v) := by
  induction k with
  | zero =>
    have hzero : f (BitVec.ofNat 8 0) = 0#w := by
      have hself := hf (BitVec.ofNat 8 0) (BitVec.ofNat 8 0)
      rwa [BitVec.xor_self, BitVec.xor_self] at hself
    exact (congrArg (fun e => [e]) hzero).symm
  | succ k ih =>
    have hsecond : ∀ j ∈ List.range (2 ^ k), f (BitVec.twoPow 8 k) ^^^ f (BitVec.ofNat 8 j) =
        f (BitVec.ofNat 8 (2 ^ k + j)) := fun j hj => by rw [← hf, twoPow_xor_ofNat (List.mem_range.1 hj)]
    rw [List.range_succ, List.map_append, fillTable, List.foldl_append, ← fillTable, ih, Nat.pow_succ, Nat.mul_two,
      List.range_add, List.map_append, List.map_map]
    simp only [List.map_cons, List.map_nil, List.foldl_cons, List.foldl_nil, List.map_map]
    congr 1
    exact List.map_congr_left hsecond

theorem baseTable_eq {w : Nat} (hw : 8 ≤ w) (refl : Bool) (pn : BitVec w) :
    baseTable refl pn = (List.range 256).map fun v => bitStep refl pn 0 (BitVec.ofNat 8 v) := by
  have hlinear (a b : Byte) : bitStep refl pn 0 (a ^^^ b) = bitStep refl pn 0 a ^^^ bitStep refl pn 0 b := by
    rw [← bitStep_xor]
    exact congrArg (bitStep refl pn · _) BitVec.xor_zero.symm
  rw [baseTable, seeds_eq hw]
  exact fillTable_eq hlinear 8

theorem baseTable_getElem? {w : Nat} (hw : 8 ≤ w) (refl : Bool) (pn : BitVec w) (v : Byte) :
    (baseTable refl pn)[v.toNat]? = some (bitStep refl pn 0 v) := by
  have hv : v.toNat < 256 := v.isLt
  rw [baseTable_eq hw, List.getElem?_map, List.getElem?_range hv, Option.map_some, BitVec.ofNat_toNat,
    BitVec.setWidth_eq]

/-! ## The chained tables (44_table_builder.md R183, R184). -/

theorem chainEntry_eq {w : Nat} (hw : 8 ≤ w) (refl : Bool) (pn e : BitVec w) :
    chainEntry refl (baseTable refl pn) e = bitStep refl pn e 0 := by
  have hentry (v : Byte) : (baseTable refl pn).getD v.toNat 0 = bitStep refl pn 0 v := by
    rw [List.getD_eq_getElem?_getD, baseTable_getElem? hw, Option.getD_some]
  rw [bitStep_eq_shiftOut hw, ← hentry]
  cases refl <;> simp [chainEntry, shiftOut, registerByte, bytePos, lowByte, topByte]

theorem repeat_chainEntry {w : Nat} (hw : 8 ≤ w) (refl : Bool) (pn e : BitVec w) (k : Nat) :
    Nat.repeat (chainEntry refl (baseTable refl pn)) k e = updBit refl pn e (List.replicate k 0) := by
  induction k with
  | zero => rfl
  | succ k ih => rw [Nat.repeat, ih, chainEntry_eq hw, List.replicate_succ', updBit_append]; rfl

/-- Every entry the builder builds holds the bitwise result of its byte and k zero bytes (44_table_builder.md R184). -/
theorem buildTables_entry {w : Nat} (hw : 8 ≤ w) (refl : Bool) (pn : BitVec w) {kMax k : Nat} (hk : k < kMax)
    (v : Byte) : (buildTables refl pn kMax).entry k v = zext64 (bitwiseEntry refl pn k v) := by
  have hrow : ((tableRows refl pn kMax).map (fun row => row.map zext64))[k]? =
      some ((baseTable refl pn).map fun e => zext64 (updBit refl pn e (List.replicate k 0))) := by
    rw [List.getElem?_map, tableRows, chainRows_getElem? _ _ _ _ _ hk, Option.map_some, List.map_map]
    congr 2
    funext e
    rw [Function.comp_apply, repeat_chainEntry hw]
  simp only [buildTables, TableStore.entry, hrow, List.getElem?_map, baseTable_getElem? hw, Option.map_some]
  rfl

/-! ## The engines on a constructed parameter set (40_parameter_set.md R114). -/

/-- Every width is one to eight whole bytes (00_scope.md R9). -/
theorem Width.bits_bytes (W : Width) : 8 ≤ W.bits ∧ W.bits % 8 = 0 ∧ W.bits ≤ 64 := by cases W <;> decide

theorem setWidth_zext64 {w : Nat} (hw : w ≤ 64) (x : BitVec w) : (zext64 x).setWidth w = x :=
  (BitVec.setWidth_setWidth_of_le x hw).trans (BitVec.setWidth_eq x)

/-- The tables of a constructed parameter set hold the bitwise results for PN. -/
theorem State.Constructed.table_eq {s : State} {f : PolyFormat} (h : s.Constructed f) {k : Nat}
    (hk : k < s.sliceMax.kMax) (v : Byte) : s.table k v = bitwiseEntry s.refl s.pn k v := by
  obtain ⟨hw, -, hle⟩ := s.width.bits_bytes
  have hpn : s.pn = toNormal f s.polyW := by rw [State.pn, h.pnormIs, setWidth_zext64 hle]
  rw [State.table, h.tablesAre, buildTables_entry hw _ _ hk, setWidth_zext64 hle, hpn]

/-- On a constructed parameter set every engine that is present is the bitwise one. -/
theorem engineUpdate_eq_updBit {s : State} {e : Engine} (hs : s.Inv) (hvalid : s.valid = true)
    (he : e.present s.sliceMax = true) (c : BitVec s.W) (bs : List Byte) :
    engineUpdate e s c bs = updBit s.refl s.pn c bs := by
  obtain ⟨f, hf⟩ := hs.validConstructed hvalid
  obtain ⟨hw, hbytes, -⟩ := s.width.bits_bytes
  have slice {n : Nat} (hn : 0 < n) (hmax : n ≤ s.sliceMax.kMax) :
      updSlice s.refl s.table n c bs = updBit s.refl s.pn c bs :=
    updSlice_eq_updBit hw hbytes _ _ c hn (fun k v hk => hf.table_eq (Nat.lt_of_lt_of_le hk hmax) v) bs
  have hfour : 4 ≤ s.sliceMax.kMax := by cases s.sliceMax <;> decide
  cases e with
  | bit => rfl
  | tbl => exact updTbl_eq_updBit hw _ _ c (fun v => hf.table_eq (by omega) v) bs
  | s4 => exact slice (by decide) hfour
  | s8 => exact slice (by decide) (of_decide_eq_true ((SliceMax.hasS8_eq _).symm.trans he))
  | s16 => exact slice (by decide) (Nat.le_of_eq (of_decide_eq_true ((SliceMax.hasS16_eq _).symm.trans he)).symm)

/-- Settles O52: every engine is the bitwise one, and SELFTEST leaves what its engine makes of the check vector. -/
theorem enginesAgree : Obligations.EnginesAgree := by
  unfold Obligations.EnginesAgree
  intro s e e' hs hvalid he he'
  have hagree (c : BitVec s.W) (bs : List Byte) : engineUpdate e s c bs = engineUpdate e' s c bs :=
    (engineUpdate_eq_updBit hs hvalid he c bs).trans (engineUpdate_eq_updBit hs hvalid he' c bs).symm
  have hvalue : selftestValue e s = selftestValue e' s := by rw [selftestValue, selftestValue, hagree]
  exact ⟨hagree, _, _, exec_completes rfl, exec_completes rfl, congrArg zext64 hvalue,
    congrArg (fun r : BitVec s.W => decide (r = s.checkW)) hvalue⟩

end Sys2Proof.Machine
end

section
/-! Proofs, part 9. The issue of a command word: the decoder on the word of any command, the step of a legal write to
CMD, and what such a write is refused with (60_exceptions.md R201, R202, R205). -/

namespace Sys2Proof

/-! ## The word of a command, well-formed or not (30_encoding.md R78, R79). -/

theorem decodeU_upper (mk : BitVec 5 → Instr) {w : Word} {len : BitVec 5} (h : w.toNat / 16 = len.toNat) :
    decodeU mk w = if lenLegal len then .command (mk len) else .illFormed := by
  split
  next hlen => exact decodeU_len mk h hlen
  next hlen =>
    have hgt : ¬ len.toNat ≤ 16 := fun hle => hlen (decide_eq_true hle)
    rw [decodeU_eq, if_neg (by omega)]

theorem decodeT_upper (m : SliceMax) {w : Word} {k : BitVec 4} {v : Byte}
    (h : w.toNat / 16 = 256 * v.toNat + 16 * k.toNat) :
    decodeT m w = if decide (k.toNat < m.kMax) then .command (.tblRead k v) else .illFormed := by
  split
  next hk => exact decodeT_fields h (of_decide_eq_true hk)
  next hk =>
    have hlt := k.isLt
    have hge : ¬ k.toNat < m.kMax := fun h => hk (decide_eq_true h)
    rw [decodeT_eq, if_neg (by omega)]

/-- The decoder on the word of any command that is not of a reserved row: its presence, then its operands. -/
theorem decode_encode (m : SliceMax) {i : Instr} (hr : i.isReserved = false) :
    decode m (encode i) =
      if i.present m then if i.operandsLegal m then .command i else .illFormed else .absent := by
  have hop : opField (encode i) = i.op := opField_append _ _
  have hupper : (encode i).toNat / 16 = i.upper.toNat := by
    rw [← toNat_restField, show restField (encode i) = i.upper from restField_append _ _]
  rw [decode, hop]
  cases i with
  | nop | construct | init | finalize => exact (decodeN_eq _ _).trans (if_pos hupper)
  | updBit len | updTbl len | updS4 len => exact decodeU_upper _ (hupper.trans (toNat_len_upper len))
  | updS8 len =>
    exact congrArg (if m.hasS8 then · else .absent) (decodeU_upper _ (hupper.trans (toNat_len_upper len)))
  | updS16 len =>
    exact congrArg (if m.hasS16 then · else .absent) (decodeU_upper _ (hupper.trans (toNat_len_upper len)))
  | selftest e => exact decodeS_code (hupper.trans (toNat_code_upper e))
  | tblRead k v => exact decodeT_upper m (hupper.trans (toNat_tblRead_upper k v))
  | reservedB rest | reservedC rest | reservedD rest | reservedE rest | reservedF rest => exact absurd hr nofun

/-- The engines that are absent are the wider slicing engines on the narrower blocks (30_encoding.md R74). -/
theorem Engine.present_eq_false_iff (e : Engine) (m : SliceMax) :
    e.present m = false ↔ (e = .s8 ∧ m.kMax < 8) ∨ (e = .s16 ∧ m.kMax < 16) := by
  cases e <;> cases m <;> decide

end Sys2Proof

namespace Sys2Proof.Machine

/-! ## A legal write to CMD (60_exceptions.md R201, R210). -/

/-- While a command is pending the write is dropped with E_BUSY. -/
theorem step_write_busy {s : State} {off : Nat} {w : Word} {rest : List HostAction} (hl : accessLegal off 4 = true)
    (ho : off < 4096) (hw : s.NextWrite off 4 w rest) (hp : s.pending ≠ none) (hc : s.countdown ≠ 0) :
    step s = .next ((s.answered rest none false).elapsed.raise .busy) := by
  have hturn := nextAction_write (.inr hc) ho hw
  rw [tick_busy hp] at hturn
  exact step_of_done (hturn.trans (busWrite_busy hl hp))

/-- With nothing pending the write goes to CMD. -/
theorem nextAction_writeCmd {s : State} {w : Word} {rest : List HostAction} (hw : s.NextWrite 0x004 4 w rest)
    (hp : s.pending = none) : nextAction s = (State.respond { s with host := rest } none false).writeCmd w :=
  (nextAction_idle hp).trans ((hostTurn_write hw (by decide)).trans (busWrite_cmd hp))

theorem step_write_command {s : State} {w : Word} {rest : List HostAction} {i : Instr} (hw : s.NextWrite 0x004 4 w rest)
    (hp : s.pending = none) (hd : decode s.sliceMax w = .command i) :
    step s = exec i (s.answered rest none false) :=
  step_of_run (by rw [nextAction_writeCmd hw hp, writeCmd_eq, hd])

theorem step_write_absent {s : State} {w : Word} {rest : List HostAction} (hw : s.NextWrite 0x004 4 w rest)
    (hp : s.pending = none) (hd : decode s.sliceMax w = .absent) :
    step s = .next ((s.answered rest none false).raise .opc) :=
  step_of_done (by rw [nextAction_writeCmd hw hp, writeCmd_eq, hd])

theorem step_write_illFormed {s : State} {w : Word} {rest : List HostAction} (hw : s.NextWrite 0x004 4 w rest)
    (hp : s.pending = none) (hd : decode s.sliceMax w = .illFormed) :
    step s = .next ((s.answered rest none false).raise .arg) :=
  step_of_done (by rw [nextAction_writeCmd hw hp, writeCmd_eq, hd])

theorem commandError_absent {i : Instr} {s : State} (h : i.present s.sliceMax = false) :
    commandError i s = some .opc := if_pos h

theorem commandError_illegal {i : Instr} {s : State} (hp : i.present s.sliceMax = true)
    (hl : i.operandsLegal s.sliceMax = false) : commandError i s = some .arg := by
  rw [commandError, if_neg (by simp [hp]), if_pos hl]

/-- The write of any command's word, with nothing pending, is the command's issue: what the decoder refuses, the checks
of the issue refuse alike (log 9). -/
theorem step_write_encode {s : State} {i : Instr} {rest : List HostAction} (hw : s.NextWrite 0x004 4 (encode i) rest)
    (hp : s.pending = none) : step s = .next (issue i (s.answered rest none false)) := by
  have hpt : (s.answered rest none false).pending = none := hp
  have issued (hd : decode s.sliceMax (encode i) = .command i) :
      step s = .next (issue i (s.answered rest none false)) :=
    (step_write_command hw hp hd).trans (exec_issues (by rw [hpt]; nofun))
  cases hr : i.isReserved with
  | true => exact issued (decodeEncodeRoundTrip _ _ (.inr hr))
  | false =>
    have hd := decode_encode s.sliceMax hr
    cases hpresent : i.present s.sliceMax with
    | false =>
      rw [hpresent] at hd
      rw [step_write_absent hw hp hd, issue_refused hpt (commandError_absent hpresent)]
    | true =>
      cases hlegal : i.operandsLegal s.sliceMax with
      | false =>
        rw [hpresent, hlegal] at hd
        rw [step_write_illFormed hw hp hd, issue_refused hpt (commandError_illegal hpresent hlegal)]
      | true =>
        rw [hpresent, hlegal] at hd
        exact issued hd

/-- How a command issues, by the checks it makes. -/
theorem issuesAs_encode {i : Instr} {check : State → Option ErrorCode} (hcheck : ∀ s, commandError i s = check s) :
    IssuesAs i (encode i) check := by
  intro s rest hw
  have hsame : commandError i (s.answered rest none false) = check s := hcheck s
  refine ⟨step_write_busy rfl (by decide) hw, fun e hp he => ?_, fun hp he => ?_⟩
  · rw [step_write_encode hw hp, issue_refused (s := s.answered rest none false) hp (hsame.trans he)]
  · rw [step_write_encode hw hp, issue_accepted (s := s.answered rest none false) hp (hsame.trans he)]

theorem refusesWith_of_illFormed {on : SliceMax → Prop} {w : Word} (h : ∀ m, on m → decode m w = .illFormed) :
    RefusesWith on w .arg :=
  fun s _ hw hp hon => step_write_illFormed hw hp (h s.sliceMax hon)

end Sys2Proof.Machine
end

section
/-! Proofs, part 10. The parameter set: the representations of the polynomial, and the rules of NOP, CONSTRUCT, INIT,
FINAL and SELFTEST (40_parameter_set.md). -/

namespace Sys2Proof.Machine

/-! ## The representations of the polynomial (40_parameter_set.md R102, R103). -/

/-- Reversal exchanges the two ends of a register. -/
theorem getLsbD_rev {w : Nat} (p : BitVec w) {i : Nat} (hi : i < w) : (rev p).getLsbD i = p.getLsbD (w - 1 - i) := by
  rw [rev, BitVec.getLsbD_reverse, BitVec.getMsbD_eq_getLsbD, decide_eq_true hi, Bool.true_and]

/-- Normal form has bit 0 set where the defining bit is set. -/
theorem getLsbD_zero_toNormal {w : Nat} (hw : 0 < w) {f : PolyFormat} {p : BitVec w} (h : definingBitSet f p = true) :
    (toNormal f p).getLsbD 0 = true := by
  cases f with
  | normal => exact h
  | reverse => exact (getLsbD_rev p hw).trans h
  | koopman => simp [toNormal, hw]

/-- Koopman form has its top bit set, whatever the polynomial. -/
theorem getLsbD_last_toKoopman {w : Nat} (pn : BitVec w) (hw : 0 < w) : (toKoopman pn).getLsbD (w - 1) = true := by
  have htop : (1#w <<< (w - 1)).getLsbD (w - 1) = true := by
    rw [← BitVec.twoPow_eq, BitVec.getLsbD_twoPow, decide_eq_true (Nat.sub_lt hw Nat.one_pos), decide_eq_true rfl]
    rfl
  rw [toKoopman, BitVec.getLsbD_or, htop, Bool.or_true]

/-- Koopman form leaves out bit 0 alone, which the conversion back sets. -/
theorem toNormal_toKoopman {w : Nat} {pn : BitVec w} (h : pn.getLsbD 0 = true) :
    toNormal .koopman (toKoopman pn) = pn := by
  refine BitVec.eq_of_getLsbD_eq fun i hi => ?_
  rw [toNormal, toKoopman]
  cases i with
  | zero => simp [h, hi]
  | succ i =>
    have hlow : (1#w <<< (w - 1)).getLsbD i = false := by
      simp only [BitVec.getLsbD_shiftLeft, BitVec.getLsbD_one]
      grind
    have hone : (1#w).getLsbD (i + 1) = false := by simp
    rw [BitVec.getLsbD_or, hone, BitVec.getLsbD_shiftLeft, BitVec.getLsbD_or]
    simp [hi, hlow, Nat.add_comm 1 i]

/-- Settles O54: reversal is its own inverse, and Koopman form loses only bit 0, which is set. -/
theorem representationsRoundTrip : Obligations.RepresentationsRoundTrip := by
  unfold Obligations.RepresentationsRoundTrip
  intro W
  have hpos : 0 < W.bits := Nat.lt_of_lt_of_le (by decide) W.bits_bytes.1
  have hlast : W.bits - 1 - (W.bits - 1) = 0 := Nat.sub_self _
  refine ⟨fun f p h => getLsbD_zero_toNormal hpos h, fun pn h =>
    ⟨BitVec.reverse_reverse_eq, toNormal_toKoopman h, ?_, ?_⟩⟩
  · rw [definingBitSet, toReverse, getLsbD_rev pn (by omega), hlast, h]
  · rw [definingBitSet, getLsbD_last_toKoopman pn hpos]

/-! ## The checks of the parameter set commands -/

/-- A command with legal operands that requires VALID has no other check. -/
theorem commandError_needsValid {i : Instr} {s : State} (hp : i.present s.sliceMax = true)
    (hl : i.operandsLegal s.sliceMax = true) (hv : needsValid i = true) : commandError i s = validCheck s := by
  have hne : i ≠ .construct := by rintro rfl; exact absurd hv nofun
  rw [commandError, if_neg (by simp [hp]), if_neg (by simp [hl]), if_neg hne, validCheck]
  cases s.valid <;> simp [hv]

/-- The check of CONSTRUCT, by the code in CFG.PFMT and the bit of POLY that defines its form (10_state.md R23, R31). -/
theorem constructError_eq (s : State) : constructError s = constructCheck s := by
  have hpos : 0 < s.W := Nat.lt_of_lt_of_le (by decide) s.width.bits_bytes.1
  have hbit {i : Nat} (hi : i < s.W) : s.polyW.getLsbD i = s.poly.getLsbD i := by
    rw [State.polyW, BitVec.getLsbD_setWidth, decide_eq_true hi, Bool.true_and]
  have hzero : s.polyW.getLsbD 0 = s.poly.getLsbD 0 := hbit hpos
  have hlast : s.polyW.getLsbD (s.W - 1) = s.poly.getLsbD (s.W - 1) := hbit (Nat.sub_lt hpos Nat.one_pos)
  unfold constructError constructCheck State.polyFormat State.definingBitOfPoly
  rw [← hzero, ← hlast]
  generalize s.cfg.extractLsb' 3 2 = c
  have hcodes : c = 0 ∨ c = 1 ∨ c = 2 ∨ c = 3 := by revert c; decide
  obtain rfl | rfl | rfl | rfl := hcodes <;> rfl

/-! ## The rules of the parameter set commands (40_parameter_set.md R100 to R112). -/

/-- A format N word with a bit of 31:4 set is ill-formed. -/
theorem refusesWith_formatN {w : Word} (hop : w.toNat % 16 ∈ [0x0, 0x1, 0x2, 0x8]) (hupper : w.toNat / 16 ≠ 0) :
    RefusesWith (fun _ => True) w .arg := by
  refine refusesWith_of_illFormed fun m _ => ?_
  obtain ⟨hnop, hconstruct, hinit, -, -, -, -, -, hfinalize, -⟩ := decodeFollowsTheOpcodeMap m w
  simp only [List.mem_cons, List.not_mem_nil, or_false] at hop
  obtain h | h | h | h := hop
  · exact (hnop h).trans (if_neg hupper)
  · exact (hconstruct h).trans (if_neg hupper)
  · exact (hinit h).trans (if_neg hupper)
  · exact (hfinalize h).trans (if_neg hupper)

/-- A format S word with a bit of 31:7 set, or a reserved ENG, is ill-formed. -/
theorem refusesWith_formatS {w : Word} (hop : w.toNat % 16 = 0x9)
    (hupper : w.toNat / 128 ≠ 0 ∨ 5 ≤ w.toNat / 16 % 8) : RefusesWith (fun _ => True) w .arg := by
  have hcode : 5 ≤ w.toNat / 16 := by omega
  refine refusesWith_of_illFormed fun m _ => ?_
  obtain ⟨-, -, -, -, -, -, -, -, -, hselftest, -⟩ := decodeFollowsTheOpcodeMap m w
  obtain ⟨-, -, -, -, -, hnoCode⟩ := hselftest hop
  exact hnoCode hcode

/-- Settles O33: NOP has no check and an effect that changes nothing. -/
theorem nopRule : Obligations.NopRule := by
  unfold Obligations.NopRule
  exact ⟨rfl, issuesAs_encode (i := .nop) fun _ => rfl, fun _ hop => refusesWith_formatN (by simp [hop]),
    fun _ hp => exec_completes hp⟩

/-- Settles O34: CONSTRUCT makes its own check alone, and completes with the forms and tables of POLY. -/
theorem constructRule : Obligations.ConstructRule := by
  unfold Obligations.ConstructRule
  refine ⟨rfl, issuesAs_encode (i := .construct) constructError_eq, fun _ hop => refusesWith_formatN (by simp [hop]),
    fun s f hp hf => ?_⟩
  have heffect : effectOf .construct s = constructFrom f s := by simp only [effectOf, constructEffect, hf]
  rw [exec_completes hp, heffect]
  rfl

/-- Settles O35: INIT requires VALID and writes CRC. -/
theorem initRule : Obligations.InitRule := by
  unfold Obligations.InitRule
  exact ⟨rfl, issuesAs_encode (i := .init) fun _ => commandError_needsValid rfl rfl rfl,
    fun _ hop => refusesWith_formatN (by simp [hop]), fun _ hp => exec_completes hp⟩

/-- Settles O36: FINAL requires VALID and writes RESULT. -/
theorem finalRule : Obligations.FinalRule := by
  unfold Obligations.FinalRule
  exact ⟨rfl, issuesAs_encode (i := .finalize) fun _ => commandError_needsValid rfl rfl rfl,
    fun _ hop => refusesWith_formatN (by simp [hop]), fun _ hp => exec_completes hp⟩

/-- The checks of SELFTEST: the engine first, then VALID (60_exceptions.md R211). -/
theorem commandError_selftest (e : Engine) (s : State) : commandError (.selftest e) s =
    if (e = .s8 ∧ s.sliceMax.kMax < 8) ∨ (e = .s16 ∧ s.sliceMax.kMax < 16) then some .arg else validCheck s := by
  split
  next h => exact commandError_illegal rfl ((e.present_eq_false_iff _).2 h)
  next h =>
    have hpresent : e.present s.sliceMax = true := eq_true_of_ne_false (mt (e.present_eq_false_iff _).1 h)
    exact commandError_needsValid rfl hpresent rfl

/-- Settles O37: SELFTEST checks its engine, then VALID, and completes with that engine over the check vector. -/
theorem selftestRule : Obligations.SelftestRule := by
  unfold Obligations.SelftestRule
  exact ⟨by decide, fun e => issuesAs_encode (commandError_selftest e), fun _ => refusesWith_formatS,
    fun _ _ hp => exec_completes hp⟩

end Sys2Proof.Machine
end

section
/-! Proofs, part 11. The update commands: each one as its engine's, and the bitwise engine as the oracle of them all
(41_bitwise_engine.md). -/

namespace Sys2Proof

/-! ## The five update commands as one family (30_encoding.md R73) -/

/-- The command that updates CRC by an engine. -/
def Engine.updateCommand : Engine → BitVec 5 → Instr
  | .bit => .updBit
  | .tbl => .updTbl
  | .s4 => .updS4
  | .s8 => .updS8
  | .s16 => .updS16

theorem exists_eq_updateCommand {i : Instr} {len : BitVec 5}
    (h : i ∈ [.updBit len, .updTbl len, .updS4 len, .updS8 len, .updS16 len]) :
    ∃ e : Engine, i = e.updateCommand len := by
  simp only [List.mem_cons, List.not_mem_nil, or_false] at h
  obtain rfl | rfl | rfl | rfl | rfl := h
  · exact ⟨.bit, rfl⟩
  · exact ⟨.tbl, rfl⟩
  · exact ⟨.s4, rfl⟩
  · exact ⟨.s8, rfl⟩
  · exact ⟨.s16, rfl⟩

namespace Engine

variable (e : Engine) (len : BitVec 5)

/-- An update command is present where its engine is. -/
@[simp] theorem updateCommand_present (m : SliceMax) : (e.updateCommand len).present m = e.present m := by
  cases e <;> rfl

@[simp] theorem updateCommand_operandsLegal (m : SliceMax) : (e.updateCommand len).operandsLegal m = lenLegal len := by
  cases e <;> rfl

@[simp] theorem updateCommand_upper : (e.updateCommand len).upper = len.setWidth 28 := by
  cases e <;> rfl

@[simp] theorem updateCommand_needsValid : Machine.needsValid (e.updateCommand len) = true := by
  cases e <;> rfl

end Engine

/-- A command's word in the notation of the encoding: bits 31:4 moved to their place, OP below them
(30_encoding.md R71). -/
theorem encode_eq_shiftLeft_or (i : Instr) : encode i = (i.upper.setWidth 32 <<< 4) ||| i.op.setWidth 32 := by
  rw [encode, BitVec.append_def, BitVec.shiftLeftZeroExtend_eq, BitVec.setWidth'_eq]

/-- The word of an update command (30_encoding.md R73). -/
theorem encode_updateCommand (e : Engine) (len : BitVec 5) :
    encode (e.updateCommand len) = (len.setWidth 32 <<< 4) ||| (e.updateCommand len).op.setWidth 32 := by
  rw [encode_eq_shiftLeft_or, e.updateCommand_upper, BitVec.setWidth_setWidth (by decide)]

end Sys2Proof

namespace Sys2Proof.Machine

/-! ## Issue (60_exceptions.md R201, R206) -/

/-- The checks of an update command: its engine, then LEN, then VALID. -/
theorem commandError_updateCommand (e : Engine) (len : BitVec 5) (s : State) :
    commandError (e.updateCommand len) s = if e.present s.sliceMax then updateCheck len s else some .opc := by
  cases he : e.present s.sliceMax with
  | false => exact commandError_absent (by simpa using he)
  | true =>
    have hpresent : (e.updateCommand len).present s.sliceMax = true := by simpa using he
    rw [if_pos rfl, updateCheck]
    split
    next hlong => exact commandError_illegal hpresent (by simpa [lenLegal] using hlong)
    next hshort =>
      exact commandError_needsValid hpresent (by simpa [lenLegal] using hshort) (e.updateCommand_needsValid len)

/-- An accepted update command has its engine, and a parameter set to run it on. -/
theorem updateCommand_accepted {e : Engine} {len : BitVec 5} {s : State}
    (h : commandError (e.updateCommand len) s = none) : e.present s.sliceMax = true ∧ s.valid = true := by
  refine ⟨?_, valid_of_accepted (e.updateCommand_needsValid len) h⟩
  cases he : e.present s.sliceMax with
  | true => rfl
  | false => exact nomatch h.symm.trans (commandError_absent (by simpa using he))

/-- A format U word with a bit of 31:9 set is ill-formed, for the three OPs that every instance has. -/
theorem refusesWith_formatU {w : Word} (hop : w.toNat % 16 ∈ [0x3, 0x4, 0x5]) (hupper : w.toNat / 512 ≠ 0) :
    RefusesWith (fun _ => True) w .arg := by
  refine refusesWith_of_illFormed fun m _ => ?_
  obtain ⟨-, -, -, hupdBit, hupdTbl, hupdS4, -⟩ := decodeFollowsTheOpcodeMap m w
  have hbad : ¬ (w.toNat / 512 = 0 ∧ w.toNat / 16 % 32 ≤ 16) := fun hok => hupper hok.1
  simp only [List.mem_cons, List.not_mem_nil, or_false] at hop
  obtain h | h | h := hop
  · exact (hupdBit h).2 hbad
  · exact (hupdTbl h).2 hbad
  · exact (hupdS4 h).2 hbad

/-! ## Completion (20_memory.md R59; 41_bitwise_engine.md R144) -/

/-- The effect of an update command is its engine's update. -/
theorem effectOf_updateCommand (e : Engine) (len : BitVec 5) (s : State) :
    effectOf (e.updateCommand len) s = updateEffect len s (engineUpdate e s) := by
  cases e <;> rfl

theorem updateEffect_retire (len : BitVec 5) (s : State) (upd : BitVec s.W → List Byte → BitVec s.W) :
    (updateEffect len s upd).retire =
      s.finishedWithCrc (if len = 0 then s.crc else zext64 (upd s.crcW (s.inputBytes len))) := by
  unfold updateEffect
  split <;> rfl

/-- The completion of an update command: CRC by its engine's update, or as it was for LEN = 0, and nothing else. -/
theorem exec_updateCommand_completes {e : Engine} {len : BitVec 5} {s : State}
    (h : s.pending = some (e.updateCommand len)) :
    exec (e.updateCommand len) s = .next (s.finishedWithCrc
      (if len = 0 then s.crc else zext64 (engineUpdate e s s.crcW (s.inputBytes len)))) := by
  rw [exec_completes h, effectOf_updateCommand, updateEffect_retire]

/-! ## The rules of the bitwise engine (41_bitwise_engine.md R141 to R146) -/

/-- Settles O51: a pending update command was accepted, so its engine is there and the parameter set is constructed; the
engine's update is then the bitwise one. -/
theorem everyUpdateIsTheOracle : Obligations.EveryUpdateIsTheOracle := by
  unfold Obligations.EveryUpdateIsTheOracle
  intro s i len hs hp hi hlen
  obtain ⟨e, rfl⟩ := exists_eq_updateCommand hi
  obtain ⟨hpresent, hvalid⟩ := updateCommand_accepted (hs.pendingAccepted _ hp)
  rw [exec_updateCommand_completes hp, if_neg hlen, engineUpdate_eq_updBit hs hvalid hpresent]

/-- Settles O53: each of the two engines is the bitwise one, whose update folds over the bytes. -/
theorem streamingAcrossEngines : Obligations.StreamingAcrossEngines := by
  unfold Obligations.StreamingAcrossEngines
  intro s e e' c A B hs hvalid he he'
  rw [engineUpdate_eq_updBit hs hvalid he', engineUpdate_eq_updBit hs hvalid he, updBit_append]

/-- Settles O44: bit_step is eight rounds, each linear, on the register with the byte XORed in. -/
theorem bitStepIsLinear : Obligations.BitStepIsLinear := by
  unfold Obligations.BitStepIsLinear
  exact fun _ refl pn c1 c2 b1 b2 => bitStep_xor refl pn c1 c2 b1 b2

/-- Settles O38: UPD_BIT is the update command of the engine that every instance has. -/
theorem updBitRule : Obligations.UpdBitRule := by
  unfold Obligations.UpdBitRule
  exact fun len => ⟨encode_updateCommand .bit len, issuesAs_encode (commandError_updateCommand .bit len),
    fun _ hop => refusesWith_formatU (by simp [hop]), fun _ hp => exec_updateCommand_completes (e := .bit) hp⟩

end Sys2Proof.Machine
end

section
/-! Proofs, part 12. The table engine: its step as the bitwise step, and UPD_TBL (42_table_engine.md). -/

namespace Sys2Proof.Machine

/-- Settles O48: the index of the entry is the register's byte that meets the next stream byte, so the table gives what
bit_step makes of that byte; upd_tbl and upd_bit fold equal steps over the bytes. -/
theorem tableStepIsBitStep : Obligations.TableStepIsBitStep := by
  unfold Obligations.TableStepIsBitStep
  intro W refl pn c t0 b ht
  obtain ⟨hw, -, -⟩ := W.bits_bytes
  exact ⟨tblStep_eq_bitStep hw refl pn c ht b, updTbl_eq_updBit hw refl pn c ht⟩

/-- Settles O39: UPD_TBL is the update command of the table engine, which every instance has. -/
theorem updTblRule : Obligations.UpdTblRule := by
  unfold Obligations.UpdTblRule
  exact fun len => ⟨encode_updateCommand .tbl len, issuesAs_encode (commandError_updateCommand .tbl len),
    fun _ hop => refusesWith_formatU (by simp [hop]), fun _ hp => exec_updateCommand_completes (e := .tbl) hp⟩

end Sys2Proof.Machine
end

section
/-! Proofs, part 13. The slicing engines: slice_step as the bitwise update and at W = 8, and UPD_S4, UPD_S8 and UPD_S16
(43_slice_engine.md). -/

namespace Sys2Proof.Machine

/-! ## slice_step (43_slice_engine.md R165, R166) -/

/-- Settles O49: every stream byte meets the register byte it would enter bit_step with, and its table entry is the
bitwise result of that byte from its distance to the end; upd_slice is such groups and then table steps. -/
theorem sliceStepIsBitwise : Obligations.SliceStepIsBitwise := by
  unfold Obligations.SliceStepIsBitwise
  intro W refl pn c t n b hn ht
  obtain ⟨hw, hbytes, -⟩ := W.bits_bytes
  have hpos : 0 < n := by
    simp only [List.mem_cons, List.not_mem_nil, or_false] at hn
    omega
  exact ⟨sliceStep_eq_updBit hw hbytes refl pn c ht, updSlice_eq_updBit hw hbytes refl pn c hpos ht b⟩

/-- A register of one byte is its own first register byte. -/
@[simp] theorem registerByte_width_eight (refl : Bool) (x : BitVec 8) : registerByte refl x 0 = x := by
  cases refl <;> simp [registerByte, bytePos]

/-- A byte placed in a register of one byte fills it. -/
@[simp] theorem placeByte_width_eight (refl : Bool) (b : Byte) : (placeByte refl b 0 : BitVec 8) = b := by
  cases refl <;> simp [placeByte, bytePos]

/-- A register of one byte meets the first stream byte alone. -/
theorem foldStream_width_eight (refl : Bool) (c : BitVec 8) (bs : List Byte) :
    foldStream refl c bs 1 = c ^^^ streamByte bs 0 := by
  rw [foldStream_succ, placeByte_width_eight]
  rfl

/-- Settles O50: the register is one byte, which the first stream byte meets and which the group consumes; the other
three bytes are indices themselves. -/
theorem sliceStepAtWidthEight : Obligations.SliceStepAtWidthEight := by
  unfold Obligations.SliceStepAtWidthEight
  intro refl t c b0 b1 b2 b3
  have hfold : foldStream refl c [b0, b1, b2, b3] (min 4 (8 / 8)) = c ^^^ b0 := foldStream_width_eight refl c _
  have hconsumed : unconsumed refl 4 (c ^^^ b0) = 0#8 := if_neg (by decide)
  have hfirst : sliceIndex refl (c ^^^ b0) [b0, b1, b2, b3] 0 = c ^^^ b0 := registerByte_width_eight refl _
  calc sliceStep refl t 4 c [b0, b1, b2, b3]
    _ = 0#8 ^^^ t 3 (sliceIndex refl (c ^^^ b0) [b0, b1, b2, b3] 0) ^^^ t 2 b1 ^^^ t 1 b2 ^^^ t 0 b3 := by
      rw [sliceStep, hfold, hconsumed]
      rfl
    _ = t 0 b3 ^^^ t 1 b2 ^^^ t 2 b1 ^^^ t 3 (c ^^^ b0) := by
      rw [hfirst, BitVec.zero_xor]
      ac_rfl

/-! ## The commands of the slicing engines (43_slice_engine.md R162 to R164) -/

/-- The checks of an update command whose engine the narrower instances lack: E_OPC before the others
(60_exceptions.md R211). -/
theorem commandError_updateCommand_of_width {e : Engine} {n : Nat}
    (he : ∀ m : SliceMax, e.present m = decide (n ≤ m.kMax)) (len : BitVec 5) (s : State) : commandError (e.updateCommand len) s =
      if s.sliceMax.kMax < n then some .opc else updateCheck len s := by
  rw [commandError_updateCommand, he]
  by_cases hn : n ≤ s.sliceMax.kMax
  · rw [if_pos (decide_eq_true hn), if_neg (Nat.not_lt.2 hn)]
  · rw [if_neg (by simp [hn]), if_pos (Nat.lt_of_not_le hn)]

theorem refusesWith_of_absent {on : SliceMax → Prop} {w : Word} (h : ∀ m, on m → decode m w = .absent) :
    RefusesWith on w .opc :=
  fun s _ hw hp hon => step_write_absent hw hp (h s.sliceMax hon)

/-- A word of UPD_S8 with a bit of 31:9 set: the engine's absence is found before the format (30_encoding.md R80). -/
theorem decode_updS8_upper (m : SliceMax) {w : Word} (hop : w.toNat % 16 = 0x6) (hupper : w.toNat / 512 ≠ 0) :
    (m.kMax < 8 → decode m w = .absent) ∧ (8 ≤ m.kMax → decode m w = .illFormed) := by
  obtain ⟨-, -, -, -, -, -, hupdS8, -⟩ := decodeFollowsTheOpcodeMap m w
  obtain ⟨habsent, hpresent⟩ := hupdS8 hop
  exact ⟨habsent, fun hm => (hpresent hm).2 (mt And.left hupper)⟩

/-- A word of UPD_S16 with a bit of 31:9 set, likewise. -/
theorem decode_updS16_upper (m : SliceMax) {w : Word} (hop : w.toNat % 16 = 0x7) (hupper : w.toNat / 512 ≠ 0) :
    (m.kMax < 16 → decode m w = .absent) ∧ (m.kMax = 16 → decode m w = .illFormed) := by
  obtain ⟨-, -, -, -, -, -, -, hupdS16, -⟩ := decodeFollowsTheOpcodeMap m w
  obtain ⟨habsent, hpresent⟩ := hupdS16 hop
  exact ⟨habsent, fun hm => (hpresent hm).2 (mt And.left hupper)⟩

/-- Settles O40: UPD_S4 is the update command of the slicing engine that every instance has. -/
theorem updS4Rule : Obligations.UpdS4Rule := by
  unfold Obligations.UpdS4Rule
  exact fun len => ⟨encode_updateCommand .s4 len, issuesAs_encode (commandError_updateCommand .s4 len),
    fun _ hop => refusesWith_formatU (by simp [hop]), fun _ hp => exec_updateCommand_completes (e := .s4) hp⟩

/-- Settles O41: UPD_S8 is the update command of an engine that instances with SLICE_MAX < 8 lack. -/
theorem updS8Rule : Obligations.UpdS8Rule := by
  unfold Obligations.UpdS8Rule
  exact fun len => ⟨encode_updateCommand .s8 len,
    issuesAs_encode (commandError_updateCommand_of_width (e := .s8) SliceMax.hasS8_eq len),
    fun _ hop hupper => ⟨refusesWith_of_absent fun m => (decode_updS8_upper m hop hupper).1,
      refusesWith_of_illFormed fun m => (decode_updS8_upper m hop hupper).2⟩,
    fun _ hp => exec_updateCommand_completes (e := .s8) hp⟩

/-- Settles O42: UPD_S16 is the update command of an engine that instances with SLICE_MAX < 16 lack. -/
theorem updS16Rule : Obligations.UpdS16Rule := by
  unfold Obligations.UpdS16Rule
  have hpresent (m : SliceMax) : Engine.s16.present m = decide (16 ≤ m.kMax) := by cases m <;> rfl
  exact fun len => ⟨encode_updateCommand .s16 len,
    issuesAs_encode (commandError_updateCommand_of_width hpresent len),
    fun _ hop hupper => ⟨refusesWith_of_absent fun m => (decode_updS16_upper m hop hupper).1,
      refusesWith_of_illFormed fun m => (decode_updS16_upper m hop hupper).2⟩,
    fun _ hp => exec_updateCommand_completes (e := .s16) hp⟩

end Sys2Proof.Machine
end

section
/-! Proofs, part 14. The table builder: its tables as the bitwise results, their linearity, and TBL_READ
(44_table_builder.md). -/

namespace Sys2Proof.Machine

/-! ## The bitwise results that the tables hold (44_table_builder.md R184, R186) -/

/-- A running value of 0 stays 0 over zero bytes. -/
theorem updBit_zero {w : Nat} (refl : Bool) (pn : BitVec w) (n : Nat) :
    updBit refl pn 0 (List.replicate n 0) = 0 := by
  have hself := updBit_xor refl pn 0 0 (List.replicate n 0)
  rwa [BitVec.xor_self, List.length_replicate, BitVec.xor_self] at hself

/-- Zero bytes before a byte that enters at 0 change nothing. -/
theorem updBit_zeros_before {w : Nat} (refl : Bool) (pn : BitVec w) (m k : Nat) (v : Byte) :
    updBit refl pn 0 (List.replicate m 0 ++ v :: List.replicate k 0) = bitwiseEntry refl pn k v := by
  rw [updBit_append, updBit_zero, bitwiseEntry]

/-- One more zero byte after v is one more bit_step. -/
theorem bitwiseEntry_succ {w : Nat} (refl : Bool) (pn : BitVec w) (k : Nat) (v : Byte) :
    bitwiseEntry refl pn (k + 1) v = bitStep refl pn (bitwiseEntry refl pn k v) 0 := by
  rw [bitwiseEntry, List.replicate_succ', ← List.cons_append, updBit_append]
  rfl

theorem bitwiseEntry_xor {w : Nat} (refl : Bool) (pn : BitVec w) (k : Nat) (a b : Byte) :
    bitwiseEntry refl pn k (a ^^^ b) = bitwiseEntry refl pn k a ^^^ bitwiseEntry refl pn k b := by
  have hfirst : bitStep refl pn 0 (a ^^^ b) = bitStep refl pn 0 a ^^^ bitStep refl pn 0 b := by
    rw [← bitStep_xor, BitVec.xor_self]
    rfl
  have hrest := updBit_xor refl pn (bitStep refl pn 0 a) (bitStep refl pn 0 b) (List.replicate k 0)
  rw [List.length_replicate, ← hfirst] at hrest
  exact hrest

theorem bitwiseEntry_zero {w : Nat} (refl : Bool) (pn : BitVec w) (k : Nat) : bitwiseEntry refl pn k 0 = 0 :=
  updBit_zero refl pn (k + 1)

/-- An entry as the engines read it, W bits. -/
theorem setWidth_buildTables_entry (W : Width) (refl : Bool) (pn : BitVec W.bits) {kMax k : Nat} (hk : k < kMax)
    (v : Byte) : ((buildTables refl pn kMax).entry k v).setWidth W.bits = bitwiseEntry refl pn k v := by
  obtain ⟨hw, -, hle⟩ := W.bits_bytes
  rw [buildTables_entry hw refl pn hk, setWidth_zext64 hle]

/-! ## The rules of the builder (44_table_builder.md R180 to R186) -/

/-- Settles O46: an entry holds the bitwise result of its byte and k zero bytes; zero bytes before that byte leave the
running value 0, and the last of those after it is one bit_step, which tbl_step over the base table is. -/
theorem chainedTablesAreBitwise : Obligations.ChainedTablesAreBitwise := by
  unfold Obligations.ChainedTablesAreBitwise
  intro W refl pn kMax k v hk
  obtain ⟨hw, -, -⟩ := W.bits_bytes
  have hentry : (buildTables refl pn kMax).entry k v = zext64 (bitwiseEntry refl pn k v) :=
    buildTables_entry hw refl pn hk v
  refine ⟨hentry, fun n _ => ?_, fun hpos => ?_⟩
  · rw [hentry, updBit_zeros_before]
  · have hbase (x : Byte) : ((buildTables refl pn kMax).entry 0 x).setWidth W.bits = bitStep refl pn 0 x :=
      setWidth_buildTables_entry W refl pn (Nat.zero_lt_of_lt hk) x
    obtain ⟨k, rfl⟩ := Nat.exists_eq_add_of_le' hpos
    rw [hentry, Nat.add_sub_cancel, setWidth_buildTables_entry W refl pn (Nat.lt_of_succ_lt hk),
      tblStep_eq_bitStep hw refl pn _ hbase, bitwiseEntry_succ]

/-- Settles O45: the seeds are bit_step at the powers of two, and the fill continues them linearly. -/
theorem baseTableIsBitwise : Obligations.BaseTableIsBitwise := by
  unfold Obligations.BaseTableIsBitwise
  exact fun W refl pn v => baseTable_getElem? W.bits_bytes.1 refl pn v

/-- Settles O47: an entry holds a bitwise result, which is linear in its byte. -/
theorem tableEntriesAreLinear : Obligations.TableEntriesAreLinear := by
  unfold Obligations.TableEntriesAreLinear
  intro W refl pn kMax k a b hk
  have hentry (v : Byte) : (buildTables refl pn kMax).entry k v = zext64 (bitwiseEntry refl pn k v) :=
    buildTables_entry W.bits_bytes.1 refl pn hk v
  constructor
  · rw [hentry, hentry, hentry, bitwiseEntry_xor]
    exact BitVec.setWidth_xor
  · rw [hentry, bitwiseEntry_zero]
    exact BitVec.setWidth_zero _ _

/-! ## TBL_READ (44_table_builder.md R187; 30_encoding.md R75) -/

/-- A field that fits where it stands is not cut by widening the word. -/
theorem setWidth_shiftLeft_of_fits {a n m i : Nat} (x : BitVec a) (hfits : a + i ≤ n) (hwider : n ≤ m) :
    (x.setWidth n <<< i).setWidth m = x.setWidth m <<< i := by
  refine BitVec.eq_of_getLsbD_eq fun j hj => ?_
  simp only [BitVec.getLsbD_setWidth, BitVec.getLsbD_shiftLeft]
  grind

/-- The word of TBL_READ: TV at bit 12, TK at bit 8, OP 0xA. -/
theorem encode_tblRead (k : BitVec 4) (v : Byte) :
    encode (.tblRead k v) = (v.setWidth 32 <<< 12) ||| (k.setWidth 32 <<< 8) ||| 0xA#32 := by
  rw [encode_eq_shiftLeft_or, Instr.upper, BitVec.setWidth_or, BitVec.shiftLeft_or_distrib,
    setWidth_shiftLeft_of_fits v (by decide) (by decide), setWidth_shiftLeft_of_fits k (by decide) (by decide),
    ← BitVec.shiftLeft_add, ← BitVec.shiftLeft_add]
  rfl

/-- The checks of TBL_READ: TK first, then VALID (60_exceptions.md R211). -/
theorem commandError_tblRead (k : BitVec 4) (v : Byte) (s : State) :
    commandError (.tblRead k v) s = if k.toNat < s.sliceMax.kMax then validCheck s else some .arg := by
  split
  next hk => exact commandError_needsValid rfl (decide_eq_true hk) rfl
  next hk => exact commandError_illegal rfl (decide_eq_false hk)

/-- A format T word with a bit of 31:20 or 7:4 set is ill-formed. -/
theorem refusesWith_formatT {w : Word} (hop : w.toNat % 16 = 0xA)
    (hzero : w.toNat / 2 ^ 20 ≠ 0 ∨ w.toNat / 16 % 16 ≠ 0) : RefusesWith (fun _ => True) w .arg := by
  refine refusesWith_of_illFormed fun m _ => ?_
  obtain ⟨-, -, -, -, -, -, -, -, -, -, htblRead, -⟩ := decodeFollowsTheOpcodeMap m w
  refine (htblRead hop).2 fun hok => ?_
  obtain ⟨hhigh, hlow, -⟩ := hok
  exact hzero.elim (· hhigh) (· hlow)

/-- Settles O43: TBL_READ checks TK, then VALID, and completes with the entry in RESULT; the tables of a coherent state
with VALID = 1 are the built ones, whose entries at 0 are 0. -/
theorem tblReadRule : Obligations.TblReadRule := by
  unfold Obligations.TblReadRule
  refine fun k v => ⟨encode_tblRead k v, issuesAs_encode (commandError_tblRead k v), fun _ => refusesWith_formatT,
    fun _ hp => exec_completes hp, fun s hs hvalid hk => ?_⟩
  obtain ⟨f, hf⟩ := hs.validConstructed hvalid
  rw [hf.table_eq hk, bitwiseEntry_zero]

end Sys2Proof.Machine
end

section
/-! Proofs, part 15. The exceptions: the checks of a CMD write in their order, the words that are refused, the writes
dropped while BUSY = 1, and what a step does to the error bits (60_exceptions.md R200 to R214). -/

namespace Sys2Proof.Machine

/-! ## The checks of a command (60_exceptions.md R201 to R206, R211) -/

theorem present_of_isReserved {i : Instr} (hr : i.isReserved = true) (m : SliceMax) : i.present m = false := by
  cases i with
  | reservedB _ | reservedC _ | reservedD _ | reservedE _ | reservedF _ => rfl
  | _ => exact absurd hr nofun

theorem isReserved_of_wellFormed {i : Instr} {m : SliceMax} (hwf : i.wellFormed m = true) : i.isReserved = false := by
  refine eq_false_of_ne_true fun hr => ?_
  rw [Instr.wellFormed, present_of_isReserved hr] at hwf
  exact absurd hwf nofun

/-- A reserved OP fails the first check (60_exceptions.md R202). -/
theorem commandError_reserved {i : Instr} (hr : i.isReserved = true) (s : State) : commandError i s = some .opc :=
  commandError_absent (present_of_isReserved hr _)

/-- A well-formed command other than CONSTRUCT has the check of VALID alone, and NOP has none (R206). -/
theorem commandError_wellFormed {i : Instr} {s : State} (hwf : i.wellFormed s.sliceMax = true) (hc : i ≠ .construct) :
    commandError i s = if i = .nop then none else validCheck s := by
  obtain ⟨hpresent, hlegal⟩ : i.present s.sliceMax = true ∧ i.operandsLegal s.sliceMax = true := by
    simpa [Instr.wellFormed] using hwf
  split
  next hnop => rw [hnop]; rfl
  next hnop =>
    refine commandError_needsValid hpresent hlegal (eq_true_of_ne_false fun hv => ?_)
    obtain h | h | h := needsValid_eq_false hv
    · exact hnop h
    · exact hc h
    · exact absurd h (by simp [isReserved_of_wellFormed hwf])

/-- Without a valid parameter set a command other than NOP and CONSTRUCT fails. -/
theorem commandError_nocfg {i : Instr} {s : State} (hwf : i.wellFormed s.sliceMax = true) (hnop : i ≠ .nop)
    (hc : i ≠ .construct) (hv : s.valid = false) : commandError i s = some .nocfg := by
  rw [commandError_wellFormed hwf hc, if_neg hnop, validCheck, hv]
  rfl

theorem commandError_eq_none {i : Instr} {s : State} (hwf : i.wellFormed s.sliceMax = true) (hc : i ≠ .construct)
    (h : i = .nop ∨ s.valid = true) : commandError i s = none := by
  rw [commandError_wellFormed hwf hc]
  split
  next => rfl
  next hnop => rw [validCheck, h.resolve_left hnop]; rfl

/-! ### CONSTRUCT: E_PFMT before E_POLY (60_exceptions.md R203, R204) -/

theorem constructCheck_pfmt {s : State} (hf : s.cfg.extractLsb' 3 2 = 3) : constructCheck s = some .pfmt := if_pos hf

theorem constructCheck_poly {s : State} (hf : s.cfg.extractLsb' 3 2 ≠ 3) (hd : s.definingBitOfPoly = false) :
    constructCheck s = some .poly := by
  rw [constructCheck, if_neg hf, hd]
  rfl

theorem constructCheck_eq_none {s : State} :
    constructCheck s = none ↔ s.cfg.extractLsb' 3 2 ≠ 3 ∧ s.definingBitOfPoly = true := by
  rw [constructCheck]
  split
  next hf => exact ⟨nofun, fun h => absurd hf h.1⟩
  next hf =>
    rw [and_iff_right hf]
    cases s.definingBitOfPoly <;> decide

/-- A constructed parameter set passes the check of CONSTRUCT. -/
theorem State.Constructed.constructCheck_eq {s : State} {f : PolyFormat} (h : s.Constructed f) :
    constructCheck s = none := by
  rw [← constructError_eq, constructError, h.format]
  exact if_pos h.definingBit

/-! ## The handling of a CMD write (60_exceptions.md R201) -/

/-- Settles O7: a decoded word is the word of its command, which issues by its checks; the decoder's two refusals and
E_BUSY have their own rules. -/
theorem issueChecksInOrder : Obligations.IssueChecksInOrder := by
  unfold Obligations.IssueChecksInOrder
  intro s w rest hw
  refine ⟨step_write_busy rfl (by decide) hw, step_write_absent hw, step_write_illFormed hw, fun i hp hd => ?_⟩
  obtain ⟨rfl, hform⟩ := encodeInvertsDecode _ _ _ hd
  have hwf (hr : i.isReserved = false) : i.wellFormed s.sliceMax = true := hform.resolve_right (by simp [hr])
  obtain ⟨-, refused, accepted⟩ := issuesAs_encode (fun _ => rfl) s rest hw
  have construct (hi : i = .construct) : commandError i s = constructCheck s := hi ▸ constructError_eq s
  refine ⟨fun hr => ?_, fun hr hnop hc hv => ?_, fun hr hc hv => ?_, fun hi hf => ?_, fun hi hf hbit => ?_,
    fun hi hf hbit => ?_⟩
  · exact refused _ hp (commandError_reserved hr s)
  · exact refused _ hp (commandError_nocfg (hwf hr) hnop hc hv)
  · exact accepted hp (commandError_eq_none (hwf hr) hc hv)
  · exact refused _ hp ((construct hi).trans (constructCheck_pfmt hf))
  · exact refused _ hp ((construct hi).trans (constructCheck_poly hf hbit))
  · exact hi ▸ accepted hp ((construct hi).trans (constructCheck_eq_none.2 ⟨hf, hbit⟩))

/-- Settles O16: the word of a well-formed command issues by the command's checks, of which VALID fails. -/
theorem commandsBeforeConstructRaiseNocfg : Obligations.CommandsBeforeConstructRaiseNocfg := by
  unfold Obligations.CommandsBeforeConstructRaiseNocfg
  intro s i rest hw hp hwf hnop hc hv
  obtain ⟨-, refused, -⟩ := issuesAs_encode (fun _ => rfl) s rest hw
  exact refused _ hp (commandError_nocfg hwf hnop hc hv)

/-- Settles O17: CONSTRUCT issues by its own check, which a parameter set with VALID = 1 in a coherent state passes. -/
theorem constructRefusesIllFormedPolynomials : Obligations.ConstructRefusesIllFormedPolynomials := by
  unfold Obligations.ConstructRefusesIllFormedPolynomials
  intro s rest hw hp
  obtain ⟨-, refused, -⟩ := issuesAs_encode (i := .construct) constructError_eq s rest hw
  refine ⟨fun hf => refused _ hp (constructCheck_pfmt hf), fun hf hbit => refused _ hp (constructCheck_poly hf hbit),
    fun hs hbad => eq_false_of_ne_true fun hv => ?_⟩
  obtain ⟨f, hf⟩ := hs.validConstructed hv
  obtain ⟨hformat, hbit⟩ := constructCheck_eq_none.1 hf.constructCheck_eq
  exact hbad.elim hformat (by simp [hbit])

/-- Settles O5: `withFetchWord` makes a state whose next action is a legal CMD write with nothing pending. -/
theorem stepRunsTheDecodedCommand : Obligations.StepRunsTheDecodedCommand := by
  unfold Obligations.StepRunsTheDecodedCommand
  refine ⟨fun s w rest i hw hp hd => step_write_command hw hp hd, fun s w i hd => ?_⟩
  have hword : BitVec.ofNat 32 (w.toNat % 2 ^ 32) = w := by
    rw [Nat.mod_eq_of_lt w.isLt, BitVec.ofNat_toNat, BitVec.setWidth_eq]
  have hw : (s.withFetchWord 32 w.toNat).NextWrite 0x004 4 w s.host := by
    rw [State.NextWrite, State.withFetchWord, hword]
    rfl
  exact step_write_command hw rfl hd

/-! ## The reserved and absent OPs (60_exceptions.md R202) -/

/-- A word with a reserved OP decodes to a reserved command on every instance (log 8). -/
theorem decode_reserved (m : SliceMax) {w : Word} (hop : 0xB ≤ w.toNat % 16) :
    ∃ i : Instr, i.isReserved = true ∧ decode m w = .command i := by
  obtain ⟨-, -, -, -, -, -, -, -, -, -, -, hB, hC, hD, hE, hF⟩ := decodeFollowsTheOpcodeMap m w
  obtain h | h | h | h | h : w.toNat % 16 = 0xB ∨ w.toNat % 16 = 0xC ∨ w.toNat % 16 = 0xD ∨ w.toNat % 16 = 0xE ∨
    w.toNat % 16 = 0xF := by omega
  · exact ⟨_, rfl, hB h⟩
  · exact ⟨_, rfl, hC h⟩
  · exact ⟨_, rfl, hD h⟩
  · exact ⟨_, rfl, hE h⟩
  · exact ⟨_, rfl, hF h⟩

/-- A reserved command is only ever refused. -/
theorem exec_reserved {i : Instr} {s : State} (hr : i.isReserved = true) (hp : s.pending = none) :
    exec i s = .next (s.raise .opc) := by
  rw [exec_issues (by simp [hp]), issue_refused hp (commandError_reserved hr s)]

/-- Settles O13: a reserved OP decodes to a command that is refused; an absent one decodes to none. -/
theorem reservedOpcodeRaisesOpc : Obligations.ReservedOpcodeRaisesOpc := by
  unfold Obligations.ReservedOpcodeRaisesOpc
  refine ⟨fun w hop s rest hw hp _ => ?_, fun w hop => refusesWith_of_absent fun m => ?_,
    fun w hop => refusesWith_of_absent fun m => ?_⟩
  · obtain ⟨i, hr, hd⟩ := decode_reserved s.sliceMax hop
    exact (step_write_command hw hp hd).trans (exec_reserved hr hp)
  · obtain ⟨-, -, -, -, -, -, hupdS8, -⟩ := decodeFollowsTheOpcodeMap m w
    exact (hupdS8 hop).1
  · obtain ⟨-, -, -, -, -, -, -, hupdS16, -⟩ := decodeFollowsTheOpcodeMap m w
    exact (hupdS16 hop).1

/-- Settles O14: each reserved command raises E_OPC, whose bit is bit 2 of STATUS[14:8]. -/
theorem reservedCommandsRaiseOpc : Obligations.ReservedCommandsRaiseOpc := by
  unfold Obligations.ReservedCommandsRaiseOpc
  exact fun s rest hp => ⟨exec_reserved rfl hp, exec_reserved rfl hp, exec_reserved rfl hp, exec_reserved rfl hp,
    exec_reserved rfl hp⟩

/-! ## Ill-formed words (30_encoding.md R79; 60_exceptions.md R205) -/

/-- A format U word with a bit of 31:9 set or LEN > 16 is ill-formed where its OP is present. -/
theorem decode_formatU_illFormed {m : SliceMax} {w : Word} (h : w.toNat / 512 ≠ 0 ∨ 16 < w.toNat / 16 % 32)
    (hop : w.toNat % 16 ∈ [0x3, 0x4, 0x5] ∨ (w.toNat % 16 = 0x6 ∧ 8 ≤ m.kMax) ∨ (w.toNat % 16 = 0x7 ∧ m.kMax = 16)) :
    decode m w = .illFormed := by
  obtain ⟨-, -, -, hupdBit, hupdTbl, hupdS4, hupdS8, hupdS16, -⟩ := decodeFollowsTheOpcodeMap m w
  have hbad : ¬ (w.toNat / 512 = 0 ∧ w.toNat / 16 % 32 ≤ 16) := by omega
  simp only [List.mem_cons, List.not_mem_nil, or_false] at hop
  obtain (h3 | h4 | h5) | ⟨h6, hm⟩ | ⟨h7, hm⟩ := hop
  · exact (hupdBit h3).2 hbad
  · exact (hupdTbl h4).2 hbad
  · exact (hupdS4 h5).2 hbad
  · exact ((hupdS8 h6).2 hm).2 hbad
  · exact ((hupdS16 h7).2 hm).2 hbad

/-- SELFTEST of an engine that the instance lacks is ill-formed (30_encoding.md R74). -/
theorem decode_selftest_absent {m : SliceMax} {e : Engine} (h : e.present m = false) :
    decode m (encode (.selftest e)) = .illFormed :=
  (decode_encode m rfl).trans (by simp [Instr.present, Instr.operandsLegal, h])

/-- A format T word with TK >= K_MAX is ill-formed (30_encoding.md R75). -/
theorem decode_tblRead_range {m : SliceMax} {w : Word} (hop : w.toNat % 16 = 0xA)
    (hk : m.kMax ≤ w.toNat / 256 % 16) : decode m w = .illFormed := by
  obtain ⟨-, -, -, -, -, -, -, -, -, -, htblRead, -⟩ := decodeFollowsTheOpcodeMap m w
  exact (htblRead hop).2 (by omega)

/-- Settles O15: in each clause the word is ill-formed by its format. -/
theorem illFormedWordRaisesArg : Obligations.IllFormedWordRaisesArg := by
  unfold Obligations.IllFormedWordRaisesArg
  intro w
  have word {n : Nat} {i : Instr} (hi : (encode i).toNat = n) (hw : w.toNat = n) : w = encode i :=
    BitVec.eq_of_toNat_eq (hw.trans hi.symm)
  refine ⟨refusesWith_formatN, ?formatU, ?updS8, ?updS16, refusesWith_formatS, ?selftestS8, ?selftestS16,
    refusesWith_formatT, fun hop => refusesWith_of_illFormed fun _ => decode_tblRead_range hop⟩
  case formatU => exact fun hop h => refusesWith_of_illFormed fun _ _ => decode_formatU_illFormed h (.inl hop)
  case updS8 =>
    exact fun hop h => refusesWith_of_illFormed fun _ hm => decode_formatU_illFormed h (.inr (.inl ⟨hop, hm⟩))
  case updS16 =>
    exact fun hop h => refusesWith_of_illFormed fun _ hm => decode_formatU_illFormed h (.inr (.inr ⟨hop, hm⟩))
  case selftestS8 =>
    intro hw
    obtain rfl := word (i := .selftest .s8) rfl hw
    exact refusesWith_of_illFormed fun m hm =>
      decode_selftest_absent ((Engine.present_eq_false_iff _ m).2 (.inl ⟨rfl, hm⟩))
  case selftestS16 =>
    intro hw
    obtain rfl := word (i := .selftest .s16) rfl hw
    exact refusesWith_of_illFormed fun m hm =>
      decode_selftest_absent ((Engine.present_eq_false_iff _ m).2 (.inr ⟨rfl, hm⟩))

/-! ## While BUSY = 1 (60_exceptions.md R213; 20_memory.md R57) -/

/-- A legal read answers a word and changes nothing of the block but the count of free values drawn. -/
theorem busRead_legal (s : State) {off : Nat} (hl : accessLegal off 4 = true) :
    ∃ (d : Word) (n : Nat), s.busRead off 4 = { s.respond (some d) false with draws := s.draws + n } := by
  rw [State.busRead, if_pos hl, State.readLegal]
  split
  · exact ⟨_, _, rfl⟩
  · exact ⟨0, 0, rfl⟩

/-- Settles O12: a write is dropped with E_BUSY before the register is looked at; a read is answered as one cycle
passes. -/
theorem writesWhileBusyAreDropped : Obligations.WritesWhileBusyAreDropped := by
  unfold Obligations.WritesWhileBusyAreDropped
  intro s off v rest ho halign hp hc
  have hl : accessLegal off 4 = true := accessLegal_eq_true.2 ⟨rfl, halign⟩
  refine ⟨fun hw => step_write_busy hl ho hw hp hc, fun hr => ?_⟩
  obtain ⟨d, n, hread⟩ := busRead_legal { s.elapsed with host := rest } hl
  have hstep := step_read (.inr hc) ho hr
  rw [tick_busy hp, hread] at hstep
  exact ⟨d, n, hstep⟩

/-! ## Every step (60_exceptions.md R210, R212, R214) -/

/-- Settles O8: an action that is over answers its state, and `exec` always answers one. -/
theorem everyStepAnswersANextState : Obligations.EveryStepAnswersANextState := by
  unfold Obligations.EveryStepAnswersANextState
  intro s
  cases h : nextAction s with
  | done t => exact ⟨t, step_of_done h⟩
  | run i t => rw [step_of_run h]; exact exec_next i t

/-- STATUS is the only register whose write touches the error bits (10_state.md R34). -/
theorem writeReg_errs (s : State) (r : Reg) (v : Word) :
    (s.writeReg r v).errs = if r = .status then clearedErrors s.errs v else s.errs := by
  cases r <;> rfl

/-- Settles O18: of the five kinds of step, a completion keeps the error bits, a reset clears them, a turn of the host
and an issue raise at most one, and a register write clears some only at STATUS. -/
theorem errorBitsOverAStep : Obligations.ErrorBitsOverAStep := by
  unfold Obligations.ErrorBitsOverAStep
  intro s t h
  rcases step_cases h with ⟨i, _, _, _, rfl⟩ | ⟨rest, hh, rfl⟩ | ⟨_, _, _, _, _, herrs⟩ |
    ⟨_, r, v, rest, hp, _, hw, rfl⟩ | ⟨_, i, v, rest, _, _, _, rfl⟩
  · obtain ⟨-, -, -, -, -, -, -, -, -, -, herrs, -⟩ := effectOf_frame i s
    exact .inl herrs
  · exact .inr (.inr (.inr ⟨resetNext_of_host hh, rfl⟩))
  · exact herrs.imp_right .inl
  · rw [writeReg_errs]
    split
    next hr => subst hr; exact .inr (.inr (.inl ⟨v, rest, hw, hp, rfl⟩))
    next => exact .inl rfl
  · rcases issue_cases i (s.answered rest none false) with ⟨e, he⟩ | ⟨_, _, he⟩ <;> rw [he]
    · exact .inr (.inl ⟨e, rfl⟩)
    · exact .inl rfl

end Sys2Proof.Machine
end

section
/-! Proofs, part 16. Reset, and what the host sees while a command is pending: reset from any state, the reset state in
derived terms, the bound on a pending command, and the reads while BUSY = 1 (70_reset_and_hazards.md). -/

namespace Sys2Proof.Machine

/-! ## Every accepted command completes (70_reset_and_hazards.md R247) -/

/-- Over a step a pending command either leaves PENDING or comes one cycle nearer its completion (log 2). -/
theorem step_pending {s t : State} {i : Instr} (hi : s.pending = some i) (h : step s = .next t) :
    t.pending = none ∨ t.pending = some i ∧ t.countdown < s.countdown := by
  have hbusy : s.pending ≠ none := by simp [hi]
  rcases step_cases h with ⟨j, _, _, _, rfl⟩ | ⟨rest, _, rfl⟩ | ⟨_, hturn, _, hpending, hcountdown, _⟩ |
    ⟨_, _, _, _, hidle, _⟩ | ⟨_, _, _, _, hidle, _⟩
  · exact .inl rfl
  · exact .inl rfl
  · have hc : s.countdown ≠ 0 := hturn.resolve_left hbusy
    rw [if_neg hbusy] at hcountdown
    exact .inr ⟨hpending.trans hi, by omega⟩
  · exact absurd hidle hbusy
  · exact absurd hidle hbusy

/-- A command with fewer than n cycles left is no longer pending after at most n steps. -/
theorem run_empties_pending (n : Nat) {s : State} {i : Instr} (hi : s.pending = some i) (hn : s.countdown < n) :
    ∃ (k : Nat) (t : State), k ≤ n ∧ Host.Core.run Sys2Proof.core k s = .next t ∧ t.pending = none := by
  induction n generalizing s with
  | zero => omega
  | succ n ih =>
    obtain ⟨t, hstep⟩ := everyStepAnswersANextState s
    rcases step_pending hi hstep with hnone | ⟨hstill, hless⟩
    · exact ⟨1, t, by omega, run_succ_of_step hstep 0, hnone⟩
    · obtain ⟨k, u, hk, hrun, hu⟩ := ih hstill (by omega)
      exact ⟨k + 1, u, by omega, (run_succ_of_step hstep k).trans hrun, hu⟩

/-- Settles O9: each step that does not empty PENDING uses up one of the command's cycles. -/
theorem everyAcceptedCommandCompletes : Obligations.EveryAcceptedCommandCompletes := by
  unfold Obligations.EveryAcceptedCommandCompletes
  exact fun s _ hi => run_empties_pending (s.countdown + 1) hi (Nat.lt_succ_self _)

/-! ## Reset (70_reset_and_hazards.md R230, R231) -/

/-- After reset STATUS reads 0: no flag and no error bit (R230). -/
theorem stored_status_resetBlock (s : State) : s.resetBlock.stored .status = 0 :=
  show statusWord false false false false 0 = 0 by decide

/-- Settles O19: a reset that is next goes before a completion, and it leaves of the old state only the instance, the
host's list, the draws and the last response. -/
theorem resetFromAnyState : Obligations.ResetFromAnyState := by
  unfold Obligations.ResetFromAnyState
  intro s rest h
  refine ⟨_, step_reset h, rfl, rfl, rfl, rfl, rfl, rfl, rfl, rfl, rfl, rfl, rfl, rfl, rfl, ?status, rfl, rfl, rfl, rfl,
    rfl⟩
  case status => exact stored_status_resetBlock _

/-- The fields of CFG = 0: WIDTH 8, RF = 0, PFMT Normal, which is none of the reserved (R231; 10_state.md R23). -/
theorem resetOf_cfg_fields (p : Params) : (State.resetOf p).width = .w8 ∧ (State.resetOf p).refl = false ∧
    (State.resetOf p).polyFormat = some .normal ∧ (State.resetOf p).cfg.extractLsb' 3 2 ≠ 3 :=
  show Width.ofCode ((0 : BitVec 5).extractLsb' 0 2) = .w8 ∧ (0 : BitVec 5).getLsbD 2 = false ∧
    PolyFormat.ofCode ((0 : BitVec 5).extractLsb' 3 2) = some .normal ∧ (0 : BitVec 5).extractLsb' 3 2 ≠ 3 by decide

/-- POLY = 0 has no defining bit (10_state.md R31). -/
theorem definingBitOfPoly_resetOf (p : Params) : (State.resetOf p).definingBitOfPoly = false := by
  simp [State.definingBitOfPoly, State.resetOf]

/-- Settles O20: with CFG = 0 the format is Normal, whose defining bit is bit 0 of POLY, and POLY = 0 lacks it. -/
theorem resetStateInDerivedTerms : Obligations.ResetStateInDerivedTerms := by
  unfold Obligations.ResetStateInDerivedTerms
  intro p
  obtain ⟨hwidth, hrefl, hformat, hdefined⟩ := resetOf_cfg_fields p
  refine ⟨rfl, rfl, rfl, rfl, rfl, congrArg Width.bits hwidth, hrefl, hformat, ?construct⟩
  case construct =>
    obtain ⟨-, refused, -⟩ := issuesAs_encode (i := .construct) constructError_eq
      { State.resetOf p with host := HostProgram.command p .construct } [] rfl
    exact refused .poly rfl (constructCheck_poly hdefined (definingBitOfPoly_resetOf p))

/-- Settles O57: after reset nothing is pending, no flag is set, and no table is built. -/
theorem resetIsCoherent : Obligations.ResetIsCoherent := by
  unfold Obligations.ResetIsCoherent
  exact fun p => ⟨.of_invalid rfl rfl rfl rfl rfl, rfl⟩

/-! ## Reads while BUSY = 1 (70_reset_and_hazards.md R242; 10_state.md R35) -/

/-- A result register reads a free word while BUSY = 1 (log 6). -/
theorem observed_of_unspecified {s : State} {r : Reg} (hp : s.pending ≠ none) (hr : r.unspecifiedWhileBusy = true) :
    s.observed r = Config.freeWord s.draws ∧ s.drawsFor r = 1 := by
  have hstatus : r ≠ .status := by rintro rfl; exact absurd hr nofun
  simp [State.observed, State.drawsFor, hstatus, busy_eq_true.2 hp, hr]

/-- Every other register but STATUS reads as it is stored, busy or not. -/
theorem observed_of_specified (s : State) {r : Reg} (hr : r ≠ .status ∧ r.unspecifiedWhileBusy = false) :
    s.observed r = s.stored r ∧ s.drawsFor r = 0 := by
  simp [State.observed, State.drawsFor, hr]

theorem selftestPending_eq_true {s : State} (h : s.selftestPending = true) : ∃ e, s.pending = some (.selftest e) := by
  unfold State.selftestPending at h
  split at h
  next e he => exact ⟨e, he⟩
  next => exact absurd h nofun

/-- While i is pending STATUS reads BUSY = 1 and the stored error bits; VALID is free only under CONSTRUCT, ST_DONE and
ST_PASS only under SELFTEST (10_state.md R35). -/
theorem observed_status_busy {s : State} {i : Instr} (hi : s.pending = some i) :
    ∃ valid stDone stPass : Bool, s.observed .status = statusWord true valid stDone stPass s.errs ∧
      (i ≠ .construct → valid = s.valid) ∧ ((∀ e, i ≠ .selftest e) → stDone = s.stDone ∧ stPass = s.stPass) := by
  rw [State.observed, if_pos rfl, State.observedStatus]
  split
  next hconstruct =>
    have : i = .construct := by simpa [hi] using hconstruct
    exact ⟨_, _, _, rfl, fun h => absurd this h, fun _ => ⟨rfl, rfl⟩⟩
  next =>
    split
    next hselftest =>
      obtain ⟨e, he⟩ := selftestPending_eq_true hselftest
      have : i = .selftest e := by simpa [hi] using he
      exact ⟨_, _, _, rfl, fun _ => rfl, fun h => absurd this (h e)⟩
    next =>
      have hbusy : s.busy = true := busy_eq_true.2 (by simp [hi])
      exact ⟨_, _, _, by rw [State.stored, hbusy], fun _ => rfl, fun _ => ⟨rfl, rfl⟩⟩

/-- Settles O29: a read on the host's turn answers what the register is observed as, which is a free word, the stored
word, or the STATUS word of `observed_status_busy`. -/
theorem readsWhileBusy : Obligations.ReadsWhileBusy := by
  unfold Obligations.ReadsWhileBusy
  intro s i r rest hi hc h
  have hp : s.pending ≠ none := by simp [hi]
  have hstep : step s = .next { (s.answered rest (some (s.observed r)) false).elapsed with
      draws := s.draws + s.drawsFor r } :=
    (step_readReg (.inr hc) h).trans (congrArg _ (tick_busy hp))
  refine ⟨fun hr => ?result, fun hr => ?stored, ?status⟩
  case result =>
    obtain ⟨hobs, hdraws⟩ := observed_of_unspecified hp
      ((by decide : ∀ r ∈ _, Reg.unspecifiedWhileBusy r = true) r hr)
    rw [hstep, hobs, hdraws]
  case stored =>
    obtain ⟨hobs, hdraws⟩ := observed_of_specified s
      ((by decide : ∀ r ∈ _, r ≠ Reg.status ∧ Reg.unspecifiedWhileBusy r = false) r hr)
    rw [hstep, hobs, hdraws]
    rfl
  case status =>
    rintro rfl
    obtain ⟨valid, stDone, stPass, hobs, hvalid, hself⟩ := observed_status_busy hi
    obtain ⟨hbusy, hbit1, hbit2, hbit3, hzero4, herrs, hzero15⟩ := statusWord_layout true valid stDone stPass s.errs
    rw [← hobs] at hbusy hbit1 hbit2 hbit3 hzero4 herrs hzero15
    exact ⟨_, _, hstep, hbusy, herrs, hzero4, hzero15, fun hne => hbit1.trans (hvalid hne),
      fun hne => ⟨hbit2.trans (hself hne).1, hbit3.trans (hself hne).2⟩⟩

end Sys2Proof.Machine
end
